-- ==== Sys2Proof/Word.lean ====
section
/-! DEFINITION. The words PKSX moves: the byte of a wire, the words of the transaction ports, the text operand. -/

namespace Sys2Proof

/-- A byte of the wire; bit 0 is the least significant bit (R32, R33). -/
abbrev Byte := BitVec 8

/-- The word of a TX command (R44). -/
abbrev CmdWord := BitVec 160

/-- The word of a CSR transaction: `D[31:0]`, `A[35:32]`, `W[36]` (R54). -/
abbrev CsrWord := BitVec 37

/-- One host transaction as it stands at its port (R3): a byte at the RX port, a command word at the TX port, a
register transaction word, or RESET, which carries no operand (R55). -/
inductive Transaction where
  | rx (b : Byte)
  | cmd (w : CmdWord)
  | csr (w : CsrWord)
  | reset
deriving DecidableEq, Repr

/-- `TKIND` (R46): the text operand is a string to encode (0) or precomputed bytes (1). -/
inductive TextKind where
  | string
  | precomputed
deriving DecidableEq, Repr

/-- The text operand of a command: the length of the string and the three 21-bit character slots (R46). -/
structure TextField where
  tlen : BitVec 8
  c0 : BitVec 21
  c1 : BitVec 21
  c2 : BitVec 21
deriving DecidableEq, Repr

end Sys2Proof
end

