-- ==== Sys2Proof/Config.lean ====
section
/-! DEFINITION. The constants of the protocol (R6), the parameters of a model instance (R5) and the five open message
sequences (R104), which are free values. -/

namespace Sys2Proof

/-- `PREAMBLE` (R6). -/
def Config.preamble : List Byte := [0xF0#8, 0x42#8, 0x40#8, 0x6E#8, 0x08#8]

/-- `SOX`, the start byte (R6). -/
def Config.sox : Byte := 0xF0#8

/-- `EOX`, the terminator (R6). -/
def Config.eox : Byte := 0xF7#8

/-- What FLASH_LIGHT does with a duration outside [0, 1] (R5, R114). -/
inductive FlashPolicy where
  | reject
  | clamp
  | literal
deriving DecidableEq, Repr

/-- The parameters of a model instance that have a default (R5); the field defaults are the spec's. -/
structure Params where
  /-- `MAX_FRAME_LEN` -/
  maxFrameLen : Nat := 64
  /-- `MIN_DECODE_LEN` -/
  minDecodeLen : Nat := 9
  /-- `PREAMBLE_CHECK` -/
  preambleCheck : Bool := true
  /-- `RT_FILTER` -/
  rtFilter : Bool := false
  /-- `FLASH_POLICY` -/
  flashPolicy : FlashPolicy := .reject
deriving DecidableEq, Repr

/-- The instance the spec's defaults give (R5). -/
def Config.defaultParams : Params := {}

/-- The legal values of R5: `MIN_DECODE_LEN` is 8 or 9 and `MIN_DECODE_LEN ≤ MAX_FRAME_LEN ≤ 65535`. -/
def Params.legal (p : Params) : Bool :=
  (p.minDecodeLen == 8 || p.minDecodeLen == 9) && decide (p.minDecodeLen ≤ p.maxFrameLen)
    && decide (p.maxFrameLen ≤ 65535)

/-! The five fixed sequences have no value in the source (R104, D26, log 2). What R104 leaves open is a free value:
an opaque list of 7-bit payload bytes, so that every byte is at most `0x7F`; what R104 fixes (the preamble, byte 5 of
three of them, the terminator, a payload of at least one byte) is built around it. An instance that breaks R104 cannot
be written down. -/

/-- Payload bytes 6 and on of `SEQ_NATIVE_ON`: a free value. -/
opaque Config.nativeOnRest : List (BitVec 7)
/-- Payload bytes 6 and on of `SEQ_NATIVE_OFF`: a free value. -/
opaque Config.nativeOffRest : List (BitVec 7)
/-- Byte 5 of `SEQ_ENABLE_OUTPUT`: a free value. -/
opaque Config.enableOutputHead : BitVec 7
/-- Payload bytes 6 and on of `SEQ_ENABLE_OUTPUT`: a free value. -/
opaque Config.enableOutputRest : List (BitVec 7)
/-- Payload bytes 6 and on of `SEQ_INIT`: a free value. -/
opaque Config.initRest : List (BitVec 7)
/-- Byte 5 of `SEQ_TEST`: a free value. -/
opaque Config.testHead : BitVec 7
/-- Payload bytes 6 and on of `SEQ_TEST`: a free value. -/
opaque Config.testRest : List (BitVec 7)

/-- `PREAMBLE ++ P ++ [0xF7]` for a payload `P` that starts with `head` (R104). -/
def Config.seqOf (head : Byte) (rest : List (BitVec 7)) : List Byte :=
  Config.preamble ++ head :: rest.map (fun x => x.setWidth 8) ++ [Config.eox]

/-- `SEQ_NATIVE_ON`, byte 5 is `0x00` (R104). -/
def Config.seqNativeOn : List Byte := Config.seqOf 0x00#8 Config.nativeOnRest
/-- `SEQ_NATIVE_OFF`, byte 5 is `0x00` (R104). -/
def Config.seqNativeOff : List Byte := Config.seqOf 0x00#8 Config.nativeOffRest
/-- `SEQ_ENABLE_OUTPUT` (R104). -/
def Config.seqEnableOutput : List Byte :=
  Config.seqOf (Config.enableOutputHead.setWidth 8) Config.enableOutputRest
/-- `SEQ_INIT`, byte 5 is `0x3F` (R104). -/
def Config.seqInit : List Byte := Config.seqOf 0x3F#8 Config.initRest
/-- `SEQ_TEST` (R104). -/
def Config.seqTest : List Byte := Config.seqOf (Config.testHead.setWidth 8) Config.testRest

end Sys2Proof
end

