-- ==== Sys2Proof/Syntax.lean ====
section
/-! DEFINITION. The instructions: one constructor per row of spec/opcode_table.json. -/

namespace Sys2Proof

/-- The rows of the opcode table with the operands their rules read (or, for the frame classes, name). The sixteen TXCMD
rows are selected by `OP` (R45), the CSR rows by `W` (R54); RX_BYTE and RESET have a port of their own (R55). The last
nine are the classes of a delivered inbound frame (R43): their operands are the payload bytes `d1 = f[6]` and
`d2 = f[7]` the class leaves open (R71), and an unknown class carries the whole frame, which its Invalid record shows
(R89). -/
inductive Instr where
  /-- R105 -/
  | nativeModeOn
  /-- R106 -/
  | nativeModeOff
  /-- R107 -/
  | enableOutput
  /-- R108 -/
  | init
  /-- R109 -/
  | test
  /-- R110; the operand is always a string -/
  | encodeText (text : TextField)
  /-- R111 -/
  | setLed (kind : TextKind) (text : TextField) (blink : Bool)
  /-- R112 -/
  | setLight (target state : Byte)
  /-- R113 -/
  | setLightBool (target : Byte) (on : Bool)
  /-- R114 -/
  | flashLight (target : Byte) (dur : BitVec 16)
  /-- R116 -/
  | setLightGroup (kind : TextKind) (text : TextField) (lights : BitVec 35)
  /-- R117 -/
  | reservedOp11
  /-- R117 -/
  | reservedOp12
  /-- R117 -/
  | reservedOp13
  /-- R117 -/
  | reservedOp14
  /-- R117 -/
  | reservedOp15
  /-- R130 -/
  | csrRead (addr : BitVec 4)
  /-- R131, R132, R133 -/
  | csrWrite (addr : BitVec 4) (data : BitVec 32)
  /-- R60 -/
  | rxByte (b : Byte)
  /-- R160 -/
  | reset
  /-- R81: `c = 0x45`, `d1 ≥ 64` -/
  | padDown (d1 d2 : Byte)
  /-- R82: `c = 0x45`, `d1 < 64` -/
  | padUp (d1 d2 : Byte)
  /-- R83: `c = 0x48`, `d2 = 127` -/
  | buttonDown (d1 : Byte)
  /-- R84: `c = 0x48`, `d2 ≠ 127` -/
  | buttonUp (d1 d2 : Byte)
  /-- R85: `c = 0x49` -/
  | knob (d1 d2 : Byte)
  /-- R86: `c = 0x43`, `d2 = 1` -/
  | rotaryRight (d1 : Byte)
  /-- R87: `c = 0x43`, `d2 ≠ 1` -/
  | rotaryLeft (d1 d2 : Byte)
  /-- R88: `c = 0x4B` -/
  | xy (d1 d2 : Byte)
  /-- R89: any other class byte; the whole delivered frame -/
  | invalidUnknownClass (frame : List Byte)
deriving DecidableEq, Repr

end Sys2Proof
end

