-- ==== Sys2Proof/WellFormed.lean ====
section
/-! DEFINITION. Which instructions an encoding can stand for. Every operand value of a host transaction is legal (R140);
the frame classes are limited by the conditions of their rows of spec/opcode_table.json (R81 to R89). -/

namespace Sys2Proof

/-- The class bytes that select an event (R43). -/
def isKnownClass (c : Byte) : Bool :=
  c == 0x43#8 || c == 0x45#8 || c == 0x48#8 || c == 0x49#8 || c == 0x4B#8

/-- A frame as the framer delivers it and the length validator can pass it: it starts with `F0`, ends with `F7` (R42)
and has the indices 5, 6 and 7 (R70). -/
def isFrame (f : List Byte) : Bool :=
  f.head? == some Config.sox && f.getLast? == some Config.eox && decide (8 ≤ f.length) && decide (f.length ≤ 65535)

/-- The instruction is one that some encoding stands for. -/
def Instr.wellFormed : Instr → Bool
  | .nativeModeOn => true
  | .nativeModeOff => true
  | .enableOutput => true
  | .init => true
  | .test => true
  | .encodeText _ => true
  | .setLed _ _ _ => true
  | .setLight _ _ => true
  | .setLightBool _ _ => true
  | .flashLight _ _ => true
  | .setLightGroup _ _ _ => true
  | .reservedOp11 => true
  | .reservedOp12 => true
  | .reservedOp13 => true
  | .reservedOp14 => true
  | .reservedOp15 => true
  | .csrRead _ => true
  | .csrWrite _ _ => true
  | .rxByte _ => true
  | .reset => true
  | .padDown d1 _ => decide (64 ≤ d1.toNat)
  | .padUp d1 _ => decide (d1.toNat < 64)
  | .buttonDown _ => true
  | .buttonUp _ d2 => d2 != 127#8
  | .knob _ _ => true
  | .rotaryRight _ => true
  | .rotaryLeft _ d2 => d2 != 1#8
  | .xy _ _ => true
  | .invalidUnknownClass f => isFrame f && !isKnownClass (f.getD 5 0#8)

end Sys2Proof
end

