-- ==== Sys2Proof/Decode.lean ====
section
/-! DEFINITION. The decoder and, after it, the encoder. A transaction word always decodes (R140); an inbound frame
decodes to its class or is rejected with the reason its validation gives (R72). -/

namespace Sys2Proof

/-! ### The TX command word (R44) -/

/-- The fields of a command word (R44), each as wide as it stands there. The defaults serve the notation of R58, in which
a field not named is 0. -/
structure CmdFields where
  target : BitVec 8 := 0#8
  state : BitVec 8 := 0#8
  b : Bool := false
  blink : Bool := false
  dur : BitVec 16 := 0#16
  tkind : Bool := false
  tlen : BitVec 8 := 0#8
  c0 : BitVec 21 := 0#21
  c1 : BitVec 21 := 0#21
  c2 : BitVec 21 := 0#21
  lights : BitVec 35 := 0#35
deriving DecidableEq, Repr

/-- `OP = w[3:0]` (R45). -/
def cmdOp (w : CmdWord) : BitVec 4 := w.extractLsb' 0 4

/-- The fields of a command word at the bit positions of R44. -/
def cmdFields (w : CmdWord) : CmdFields where
  target := w.extractLsb' 4 8
  state := w.extractLsb' 12 8
  b := w.getLsbD 20
  blink := w.getLsbD 21
  dur := w.extractLsb' 22 16
  tkind := w.getLsbD 38
  tlen := w.extractLsb' 39 8
  c0 := w.extractLsb' 47 21
  c1 := w.extractLsb' 68 21
  c2 := w.extractLsb' 89 21
  lights := w.extractLsb' 110 35

/-- `TKIND` as R46 names its two values. -/
def TextKind.ofBit (t : Bool) : TextKind := if t then .precomputed else .string

/-- The text operand of a command (R46). -/
def CmdFields.text (f : CmdFields) : TextField where
  tlen := f.tlen
  c0 := f.c0
  c1 := f.c1
  c2 := f.c2

/-- The command of a word (R45). Fields the command does not use and bits 159:145 are not read (R44). -/
def decodeCmd (w : CmdWord) : Instr :=
  let f := cmdFields w
  match (cmdOp w).toNat with
  | 0 => .nativeModeOn
  | 1 => .nativeModeOff
  | 2 => .enableOutput
  | 3 => .init
  | 4 => .test
  | 5 => .encodeText f.text
  | 6 => .setLed (TextKind.ofBit f.tkind) f.text f.blink
  | 7 => .setLight f.target f.state
  | 8 => .setLightBool f.target f.b
  | 9 => .flashLight f.target f.dur
  | 10 => .setLightGroup (TextKind.ofBit f.tkind) f.text f.lights
  | 11 => .reservedOp11
  | 12 => .reservedOp12
  | 13 => .reservedOp13
  | 14 => .reservedOp14
  | _ => .reservedOp15

/-! ### The CSR, RX and RESET transactions -/

/-- `W[36]`, `A[35:32]`, `D[31:0]` (R54); the data of a read is ignored. -/
def decodeCsr (w : CsrWord) : Instr :=
  if w.getLsbD 36 then .csrWrite (w.extractLsb' 32 4) (w.extractLsb' 0 32) else .csrRead (w.extractLsb' 32 4)

/-- The instruction of a host transaction: every word of every port is one (R140). -/
def decodeTransaction : Transaction → Instr
  | .rx b => .rxByte b
  | .cmd w => decodeCmd w
  | .csr w => decodeCsr w
  | .reset => .reset

/-! ### Inbound frames -/

/-- The reason of an Invalid record (R52). `overflow` is the framer's (R68), `unknownClass` the classifier's (R89); the
other two are the frame decoder's names for a frame it rejects (R72). -/
inductive InvReason where
  | short
  | badPreamble
  | unknownClass
  | overflow
deriving DecidableEq, Repr

/-- The class of a validated frame with the operands of its row (R43). -/
inductive FrameClass where
  | padDown (d1 d2 : Byte)
  | padUp (d1 d2 : Byte)
  | buttonDown (d1 : Byte)
  | buttonUp (d1 d2 : Byte)
  | knob (d1 d2 : Byte)
  | rotaryRight (d1 : Byte)
  | rotaryLeft (d1 d2 : Byte)
  | xy (d1 d2 : Byte)
  | unknown (frame : List Byte)
deriving DecidableEq, Repr

/-- The instruction a frame class is. -/
def FrameClass.toInstr : FrameClass → Instr
  | .padDown d1 d2 => .padDown d1 d2
  | .padUp d1 d2 => .padUp d1 d2
  | .buttonDown d1 => .buttonDown d1
  | .buttonUp d1 d2 => .buttonUp d1 d2
  | .knob d1 d2 => .knob d1 d2
  | .rotaryRight d1 => .rotaryRight d1
  | .rotaryLeft d1 d2 => .rotaryLeft d1 d2
  | .xy d1 d2 => .xy d1 d2
  | .unknown f => .invalidUnknownClass f

/-- The preamble detector (R69). -/
def preambleOk (f : List Byte) : Bool := decide (5 ≤ f.length) && f.take 5 == Config.preamble

/-- The length validator (R70). -/
def lengthOk (p : Params) (f : List Byte) : Bool := decide (p.minDecodeLen ≤ f.length)

/-- The first failing check of a delivered frame, or none (R72). -/
def validate (p : Params) (f : List Byte) : Option InvReason :=
  if !lengthOk p f then some .short
  else if p.preambleCheck && !preambleOk f then some .badPreamble
  else none

/-- The class that `c`, `d1`, `d2` select (R43, R81 to R89), in a frame `f`. -/
def classify (c d1 d2 : Byte) (f : List Byte) : FrameClass :=
  if c = 0x45#8 then (if 64 ≤ d1.toNat then .padDown d1 d2 else .padUp d1 d2)
  else if c = 0x48#8 then (if d2 = 127#8 then .buttonDown d1 else .buttonUp d1 d2)
  else if c = 0x49#8 then .knob d1 d2
  else if c = 0x43#8 then (if d2 = 1#8 then .rotaryRight d1 else .rotaryLeft d1 d2)
  else if c = 0x4B#8 then .xy d1 d2
  else .unknown f

/-- Validation (R72), payload extraction (R71) and classification of a delivered frame (R80). -/
def decodeFrame (p : Params) (f : List Byte) : Except InvReason FrameClass :=
  match validate p f with
  | some r => .error r
  | none => .ok (classify (f.getD 5 0#8) (f.getD 6 0#8) (f.getD 7 0#8) f)

/-! ### All encodings -/

/-- What an instruction of the opcode table is encoded in: a host transaction, or an inbound frame. -/
inductive Code where
  | port (t : Transaction)
  | frame (f : List Byte)
deriving DecidableEq, Repr

/-- The decoder: total, and what it rejects it rejects by the reason of R52. -/
def decode (p : Params) : Code → Except InvReason Instr
  | .port t => .ok (decodeTransaction t)
  | .frame f =>
    match decodeFrame p f with
    | .error r => .error r
    | .ok k => .ok k.toInstr

/-! ### The words of the opcode table -/

/-- Why a word with the opcode table's numbering is no encoding. -/
inductive LayoutReject where
  | noFormatOfThisWidth
  | bitsBeyondTheFormat
deriving DecidableEq, Repr

/-- The nine-byte frame of class byte `c` and payload bytes `d1`, `d2` (R42). -/
def nineByteFrame (c d1 d2 : Byte) : List Byte := Config.preamble ++ [c, d1, d2, Config.eox]

/-- A word of the opcode table at its port. The width tells the format: 0 bits RESET, 8 RX, 24 the bytes `c`, `d1`, `d2`
of a frame (bits 23:16, 15:8, 7:0), 37 (40 in whole bytes) CSR, 160 TXCMD; log 10. -/
def layOut (nbits w : Nat) : Except LayoutReject Code :=
  match nbits with
  | 0 => if w = 0 then .ok (.port .reset) else .error .bitsBeyondTheFormat
  | 8 => if w < 2 ^ 8 then .ok (.port (.rx (BitVec.ofNat 8 w))) else .error .bitsBeyondTheFormat
  | 24 =>
    if w < 2 ^ 24 then
      .ok (.frame (nineByteFrame (BitVec.ofNat 8 (w / 2 ^ 16)) (BitVec.ofNat 8 (w / 2 ^ 8)) (BitVec.ofNat 8 w)))
    else .error .bitsBeyondTheFormat
  | 37 => if w < 2 ^ 37 then .ok (.port (.csr (BitVec.ofNat 37 w))) else .error .bitsBeyondTheFormat
  | 40 => if w < 2 ^ 37 then .ok (.port (.csr (BitVec.ofNat 37 w))) else .error .bitsBeyondTheFormat
  | 160 => if w < 2 ^ 160 then .ok (.port (.cmd (BitVec.ofNat 160 w))) else .error .bitsBeyondTheFormat
  | _ => .error .noFormatOfThisWidth

/-- The instruction the decoder reads from a word with the opcode table's numbering, under the default parameters. -/
def decodeTableWord (nbits w : Nat) : Option Instr :=
  match layOut nbits w with
  | .error _ => none
  | .ok c =>
    match decode Config.defaultParams c with
    | .error _ => none
    | .ok i => some i

/-! ### The encoder -/

/-- The command word of an operation code and its fields (R44); bits 159:145 are 0. -/
def cmdWord (op : BitVec 4) (f : CmdFields) : CmdWord :=
  (f.lights ++ f.c2 ++ f.c1 ++ f.c0 ++ f.tlen ++ BitVec.ofBool f.tkind ++ f.dur ++ BitVec.ofBool f.blink
    ++ BitVec.ofBool f.b ++ f.state ++ f.target ++ op).setWidth 160

/-- `TKIND` as a bit (R46). -/
def TextKind.bit : TextKind → Bool
  | .string => false
  | .precomputed => true

/-- A command that carries a text and nothing else. -/
def TextField.fields (t : TextField) : CmdFields where
  tlen := t.tlen
  c0 := t.c0
  c1 := t.c1
  c2 := t.c2

/-- The CSR word of a transaction (R54). -/
def csrWord (w : Bool) (a : BitVec 4) (d : BitVec 32) : CsrWord := (BitVec.ofBool w ++ a ++ d).setWidth 37

/-- The TX port's word for an operation code and its fields. -/
def encodeCmd (op : BitVec 4) (f : CmdFields) : Code := .port (.cmd (cmdWord op f))

/-- The encoding of an instruction: its transaction with unused fields 0, or for a frame class the nine-byte frame of its
operands (an unknown class: the frame it carries). -/
def encode : Instr → Code
  | .nativeModeOn => encodeCmd 0#4 {}
  | .nativeModeOff => encodeCmd 1#4 {}
  | .enableOutput => encodeCmd 2#4 {}
  | .init => encodeCmd 3#4 {}
  | .test => encodeCmd 4#4 {}
  | .encodeText t => encodeCmd 5#4 t.fields
  | .setLed k t blink => encodeCmd 6#4 { t.fields with tkind := k.bit, blink := blink }
  | .setLight target state => encodeCmd 7#4 { target := target, state := state }
  | .setLightBool target on => encodeCmd 8#4 { target := target, b := on }
  | .flashLight target dur => encodeCmd 9#4 { target := target, dur := dur }
  | .setLightGroup k t lights => encodeCmd 10#4 { t.fields with tkind := k.bit, lights := lights }
  | .reservedOp11 => encodeCmd 11#4 {}
  | .reservedOp12 => encodeCmd 12#4 {}
  | .reservedOp13 => encodeCmd 13#4 {}
  | .reservedOp14 => encodeCmd 14#4 {}
  | .reservedOp15 => encodeCmd 15#4 {}
  | .csrRead a => .port (.csr (csrWord false a 0#32))
  | .csrWrite a d => .port (.csr (csrWord true a d))
  | .rxByte b => .port (.rx b)
  | .reset => .port .reset
  | .padDown d1 d2 => .frame (nineByteFrame 0x45#8 d1 d2)
  | .padUp d1 d2 => .frame (nineByteFrame 0x45#8 d1 d2)
  | .buttonDown d1 => .frame (nineByteFrame 0x48#8 d1 127#8)
  | .buttonUp d1 d2 => .frame (nineByteFrame 0x48#8 d1 d2)
  | .knob d1 d2 => .frame (nineByteFrame 0x49#8 d1 d2)
  | .rotaryRight d1 => .frame (nineByteFrame 0x43#8 d1 1#8)
  | .rotaryLeft d1 d2 => .frame (nineByteFrame 0x43#8 d1 d2)
  | .xy d1 d2 => .frame (nineByteFrame 0x4B#8 d1 d2)
  | .invalidUnknownClass f => .frame f

end Sys2Proof
end

