-- ==== Sys2Proof/Machine/State.lean ====
section
/-! DEFINITION. The state of the block as plain data, the records it emits, the ways a step can stop, and reset. -/

namespace Sys2Proof.Machine

/-- `FR_STATE` (R15). Its value 3 is never written and cannot be written down here (U7). -/
inductive FrState where
  | idle
  | recv
  | discard
deriving DecidableEq, Repr

/-- `CTRL.INV_MODE` (R18): 0 SIGNAL, 1 HANDLER. -/
inductive InvMode where
  | signal
  | handler
deriving DecidableEq, Repr

/-- The kind of a classified event (R51). Tags 9 to 15 are never emitted and cannot be written down (U11); tag 8 is an
Invalid record. -/
inductive EvTag where
  | padDown
  | padUp
  | buttonDown
  | buttonUp
  | knob
  | rotaryLeft
  | rotaryRight
  | xy
deriving DecidableEq, Repr

/-- `EV(tag, a, b)` (R51). -/
structure EvRecord where
  tag : EvTag
  a : BitVec 9
  b : BitVec 8
deriving DecidableEq, Repr

/-- `INV(reason, raw)` (R51, R52). -/
structure InvRecord where
  reason : InvReason
  raw : List Byte
deriving DecidableEq, Repr

/-- A record of the stream `EVT`: a classified event, or an Invalid record under the HANDLER policy (R18). -/
inductive EvtRecord where
  | ev (e : EvRecord)
  | inv (r : InvRecord)
deriving DecidableEq, Repr

/-- The code of a rejected command (R53, R142). -/
inductive RejectCode where
  | badTextLen
  | badCodePoint
  | badState
  | badTarget
  | durationRange
  | illegalOp
deriving DecidableEq, Repr

/-- A record of the stream `TXR` (R53). -/
inductive TxResponse where
  | msg (bytes : List Byte)
  | bytes3 (t0 t1 t2 : Byte)
  | reject (code : RejectCode)
deriving DecidableEq, Repr

/-- One output of a step (R4): a record on `EVT`, on `ERR` or on `TXR`, or the data a CSR_READ returns. -/
inductive Output where
  | evt (r : EvtRecord)
  | err (r : InvRecord)
  | txr (r : TxResponse)
  | csr (d : BitVec 32)
deriving DecidableEq, Repr

/-- Why a step stops with a fault. The block has no fault of its own (R140). Both are safe: the machine stops where no
rule says what the value is, and neither is raised in a state that a run from reset reaches (the invariant of
Sys2Proof/Safety.lean rules them out). -/
inductive Fault where
  /-- Raised by the read of an `FR_BUF` entry that holds no value (R12, U6: "fault if ever read"). Safe. -/
  | frBufHoldsNoValue
  /-- Raised by a read or a write of an `FR_BUF` index at or above `MAX_FRAME_LEN`, which does not exist (R12, R30). Safe. -/
  | frBufNoSuchEntry
deriving DecidableEq, Repr

/-- Why a step is refused. All are safe: the machine does nothing. -/
inductive Refusal where
  /-- Raised by an arm of `exec` whose instruction has no meaning yet; no arm does. Safe. -/
  | notModelled (mnemonic : String)
  /-- Raised by `step` when the host has issued no further transaction: the run has ended (R171), and the block never steps
  on its own (R2). Safe. -/
  | noTransaction
  /-- Raised by `step` on an instance whose parameters R5 does not allow. Safe. -/
  | illegalParameters
deriving DecidableEq, Repr

/-- The frame buffer: the entries that hold a value, by index, strictly rising. -/
abbrev Memory := List Host.Cell

/-- The state of the block (R10), with the parameters of the instance (log 1), the transactions still to come (log 3) and
the outputs so far (log 4). -/
structure State where
  /-- The parameters of the instance (R5); no step writes them. The model's own field. -/
  params : Params
  /-- `FR_BUF` (R12) -/
  frBuf : Memory
  /-- `FR_LEN` (R13) -/
  frLen : BitVec 16
  /-- `FR_STATE` (R15) -/
  frState : FrState
  /-- `CTRL.EN` (R17) -/
  ctrlEn : BitVec 8
  /-- `CTRL.INV_MODE` (R18) -/
  ctrlInvMode : InvMode
  /-- `STATUS.DECODE_ERR` (R19) -/
  decodeErr : Bool
  /-- `STATUS.OVERFLOW` (R19) -/
  overflow : Bool
  /-- `STATUS.ABORT` (R19) -/
  abort : Bool
  /-- The host's transactions still to be consumed, oldest first. The model's own field. -/
  input : List Transaction
  /-- The outputs of the run so far, oldest first, on all streams in the order of the steps (R39). The model's own field. -/
  output : List Output
deriving DecidableEq, Repr

/-- The state after reset (R24), which is also the state before the first step of a run (R161): the default instance, no
transaction issued, nothing emitted. -/
def State.reset : State where
  params := Config.defaultParams
  frBuf := []
  frLen := 0#16
  frState := .idle
  ctrlEn := 0x00#8
  ctrlInvMode := .signal
  decodeErr := false
  overflow := false
  abort := false
  input := []
  output := []

end Sys2Proof.Machine
end

