-- ==== Sys2Proof/Machine/Ops.lean ====
section
/-! DEFINITION. The shared operations: the frame buffer, the opening and closing of a frame, the output streams, and the
two ways an error is taken. -/

namespace Sys2Proof.Machine

/-! ### Memory -/

/-- What an unlisted entry reads as: no value (R12, R24; log 5). -/
def Memory.unlisted : Option Byte := none

/-- The value an index holds. -/
def Memory.read : Memory → Nat → Option Byte
  | [], _ => Memory.unlisted
  | (k, v) :: m, a => if a = k then some v else Memory.read m a

/-- Store a byte at an index, keeping the list's canonical form. -/
def Memory.write : Memory → Nat → Byte → Memory
  | [], a, b => [(a, b)]
  | (k, v) :: m, a, b =>
    if a < k then (a, b) :: (k, v) :: m
    else if a = k then (a, b) :: m
    else (k, v) :: Memory.write m a b

/-- Every index of `m` is above `a`, and they rise strictly. -/
def Memory.risesFrom : Nat → Memory → Bool
  | _, [] => true
  | a, (k, _) :: m => decide (a ≤ k) && Memory.risesFrom (k + 1) m

/-- The canonical form: strictly rising indices, and no entry that reads as an unlisted one does. -/
def Memory.wf (m : Memory) : Bool := Memory.risesFrom 0 m && m.all (fun c => some c.2 != Memory.unlisted)

/-! ### The frame buffer (R12, R30) -/

/-- `MemRead(i, 1)`: entry `i` of `FR_BUF`. -/
def frBufRead (s : State) (i : Nat) : Except Fault Byte :=
  if i < s.params.maxFrameLen then
    match Memory.read s.frBuf i with
    | some b => .ok b
    | none => .error .frBufHoldsNoValue
  else .error .frBufNoSuchEntry

/-- `MemWrite(i, 1, b)`: store into entry `i` of `FR_BUF`. -/
def frBufWrite (s : State) (i : Nat) (b : Byte) : Except Fault State :=
  if i < s.params.maxFrameLen then .ok { s with frBuf := Memory.write s.frBuf i b }
  else .error .frBufNoSuchEntry

/-- The `n` entries from index `i` on. -/
def frBufReadFrom (s : State) (i : Nat) : Nat → Except Fault (List Byte)
  | 0 => .ok []
  | n + 1 =>
    match frBufRead s i with
    | .error e => .error e
    | .ok b =>
      match frBufReadFrom s (i + 1) n with
      | .error e => .error e
      | .ok bs => .ok (b :: bs)

/-- `FR_BUF[0 .. FR_LEN-1]` (R65, R68). -/
def bufferedBytes (s : State) : Except Fault (List Byte) := frBufReadFrom s 0 s.frLen.toNat

/-- No entry holds a value any more: every entry is at or above the new `FR_LEN` (R12). -/
def forgetBuffer (s : State) : State := { s with frBuf := [] }

/-- `FR_LEN <- n`. -/
def setFrLen (n : BitVec 16) (s : State) : State := { s with frLen := n }

/-- `FR_STATE <- x`. -/
def setFrState (x : FrState) (s : State) : State := { s with frState := x }

/-- `FR_BUF[0] <- 0xF0; FR_LEN <- 1; FR_STATE <- RECV` (R62, R66); entries from 1 on hold no value (R12). -/
def openFrame (s : State) : Except Fault State :=
  match frBufWrite (forgetBuffer s) 0 Config.sox with
  | .error e => .error e
  | .ok t => .ok (setFrState .recv (setFrLen 1#16 t))

/-- `FR_BUF[FR_LEN] <- b; FR_LEN <- FR_LEN + 1` (R64). -/
def appendByte (b : Byte) (s : State) : Except Fault State :=
  match frBufWrite s s.frLen.toNat b with
  | .error e => .error e
  | .ok t => .ok (setFrLen (t.frLen + 1#16) t)

/-- `FR_LEN <- 0; FR_STATE <- IDLE` (R65, R68); no entry holds a value any more (R12). -/
def closeFrame (s : State) : State := setFrState .idle (setFrLen 0#16 (forgetBuffer s))

/-- The framer holding the open frame `f` less its terminator: what the bytes of `f` before its `F7` leave (R62, R64). -/
def stageFrame (f : List Byte) (s : State) : State :=
  { s with
    frBuf := f.dropLast.zipIdx.map (fun x => (x.2, x.1))
    frLen := BitVec.ofNat 16 f.dropLast.length
    frState := .recv }

/-! ### The output streams (R4) -/

/-- One more output, after every earlier one. -/
def emit (o : Output) (s : State) : State := { s with output := s.output ++ [o] }

/-- `emit_evt(r)` -/
def emitEvt (r : EvtRecord) (s : State) : State := emit (.evt r) s

/-- `emit_err(r)` -/
def emitErr (r : InvRecord) (s : State) : State := emit (.err r) s

/-- `respond(r)` -/
def respond (r : TxResponse) (s : State) : State := emit (.txr r) s

/-- The data a CSR_READ returns as the result of its transaction. -/
def returnData (d : BitVec 32) (s : State) : State := emit (.csr d) s

/-- The records on `EVT`, oldest first. -/
def evtOf (out : List Output) : List EvtRecord :=
  out.filterMap (fun o => match o with | .evt r => some r | _ => none)

/-- The records on `ERR`, oldest first. -/
def errOf (out : List Output) : List InvRecord :=
  out.filterMap (fun o => match o with | .err r => some r | _ => none)

/-- The records on `TXR`, oldest first. -/
def txrOf (out : List Output) : List TxResponse :=
  out.filterMap (fun o => match o with | .txr r => some r | _ => none)

/-- The results of the CSR_READs, oldest first. -/
def csrOf (out : List Output) : List (BitVec 32) :=
  out.filterMap (fun o => match o with | .csr d => some d | _ => none)

/-! ### Taking an error -/

/-- `raise DecodeError(reason, raw)`: the invalid-message path, the block's exception entry (R143). It saves nothing and
redirects nothing (R144). -/
def raiseDecodeError (reason : InvReason) (raw : List Byte) (s : State) : State :=
  match s.ctrlInvMode with
  | .signal => { emitErr { reason := reason, raw := raw } s with decodeErr := true }
  | .handler => emitEvt (.inv { reason := reason, raw := raw }) s

/-- What stands for the return from a decode error: the handler clears `STATUS.DECODE_ERR` (R150). -/
def acknowledgeDecodeError (s : State) : State := { s with decodeErr := false }

/-- `raise InvalidArgument(code)` in a command answers `REJECT(code)`; otherwise the command's own response (R101). -/
def orReject : Except RejectCode TxResponse → TxResponse
  | .ok r => r
  | .error c => .reject c

/-- The outcome of an operation that may touch `FR_BUF` where nothing stands. -/
def outcomeOf : Except Fault State → Host.Outcome State Fault Refusal
  | .ok s => .next s
  | .error e => .fault e

/-! ### The host's transactions -/

/-- The host's next transaction and the state without it. -/
def takeTransaction (s : State) : Option (Transaction × State) :=
  match s.input with
  | [] => none
  | t :: rest => some (t, { s with input := rest })

/-- The host issues `ts` next. -/
def issue (ts : List Transaction) (s : State) : State := { s with input := ts ++ s.input }

end Sys2Proof.Machine
end

