-- ==== Sys2Proof/Machine/Flags.lean ====
section
/-! DEFINITION. The registers CTRL and STATUS, the sticky flags, and the level `irq`. -/

namespace Sys2Proof.Machine

/-- The two bits of `FR_STATE` (R15). -/
def frStateBits : FrState → BitVec 2
  | .idle => 0#2
  | .recv => 1#2
  | .discard => 2#2

/-- `INV_MODE` as its bit (R18). -/
def invModeBit : InvMode → Bool
  | .signal => false
  | .handler => true

/-- `INV_MODE` from its bit (R18). -/
def invModeOf (b : Bool) : InvMode := if b then .handler else .signal

/-- What CTRL reads as (R16, R130). -/
def ctrlWord (s : State) : BitVec 32 := (BitVec.ofBool (invModeBit s.ctrlInvMode) ++ s.ctrlEn).setWidth 32

/-- What STATUS reads as (R19, R130). -/
def statusWord (s : State) : BitVec 32 :=
  (s.frLen ++ 0#11 ++ frStateBits s.frState ++ BitVec.ofBool s.abort ++ BitVec.ofBool s.overflow
    ++ BitVec.ofBool s.decodeErr).setWidth 32

/-- The register at a CSR address; an unmapped address reads 0 (R130, R133). -/
def csrValue (a : BitVec 4) (s : State) : BitVec 32 :=
  if a = 0x0#4 then ctrlWord s else if a = 0x1#4 then statusWord s else 0#32

/-- `CSR_WRITE(0x0, d)` (R131): bits 31:9 are ignored. -/
def writeCtrl (d : BitVec 32) (s : State) : State :=
  { s with ctrlEn := d.extractLsb' 0 8, ctrlInvMode := invModeOf (d.getLsbD 8) }

/-- `STATUS.OVERFLOW <- 1` (R64). -/
def setOverflow (s : State) : State := { s with overflow := true }

/-- `STATUS.ABORT <- 1` (R66). -/
def setAbort (s : State) : State := { s with abort := true }

/-- `STATUS.OVERFLOW <- 0` (R132). -/
def clearOverflow (s : State) : State := { s with overflow := false }

/-- `STATUS.ABORT <- 0` (R132). -/
def clearAbort (s : State) : State := { s with abort := false }

/-- `CSR_WRITE(0x1, d)` (R132): each sticky bit written with 1 is cleared, every other bit of `d` is ignored. -/
def writeStatus (d : BitVec 32) (s : State) : State :=
  let s1 := if d.getLsbD 0 then acknowledgeDecodeError s else s
  let s2 := if d.getLsbD 1 then clearOverflow s1 else s1
  if d.getLsbD 2 then clearAbort s2 else s2

/-- `CSR_WRITE(a, d)` (R131, R132, R133). -/
def writeCsr (a : BitVec 4) (d : BitVec 32) (s : State) : State :=
  if a = 0x0#4 then writeCtrl d s else if a = 0x1#4 then writeStatus d s else s

/-- The output level `irq` (R20, R149). -/
def irq (s : State) : Bool := s.decodeErr

end Sys2Proof.Machine
end

