-- ==== Sys2Proof/Machine/Csr.lean ====
section
/-! DEFINITION. The CSR and RESET families (43_csr_access.md, 70_reset_and_hazards.md §1). -/

namespace Sys2Proof.Machine

/-- R130: the register's value is the result of the transaction and nothing else changes. -/
def execCsrRead (a : BitVec 4) (s : State) : Host.Outcome State Fault Refusal := .next (returnData (csrValue a s) s)

/-- R131, R132, R133 -/
def execCsrWrite (a : BitVec 4) (d : BitVec 32) (s : State) : Host.Outcome State Fault Refusal :=
  .next (writeCsr a d s)

/-- Every piece of state takes its reset value (R24, R160); the instance, the transactions to come and the records already
emitted stay. -/
def resetState (s : State) : State :=
  { State.reset with params := s.params, input := s.input, output := s.output }

/-- R160 -/
def execReset (s : State) : Host.Outcome State Fault Refusal := .next (resetState s)

end Sys2Proof.Machine
end

