-- ==== Sys2Proof/Machine/Operands.lean ====
section
/-! DEFINITION. The operand forms of the commands and the codes of the records: targets, texts, light states, durations,
the light-group mask, and the packed words of R51 to R53. -/

namespace Sys2Proof.Machine

/-! ### Command operands -/

/-- `check_target(t)` (R102). -/
def checkTarget (t : Byte) : Except RejectCode Unit := if 0x7F < t.toNat then .error .badTarget else .ok ()

/-- The legal light state bytes `LSET` (R47). -/
def isLightState (v : Byte) : Bool :=
  v == 0x00#8 || v == 0x20#8 || (decide (0x40 ≤ v.toNat) && decide (v.toNat ≤ 0x40 + 30)) || v == 0x60#8

/-- The state check of SET_LIGHT (R112). -/
def checkState (v : Byte) : Except RejectCode Unit := if isLightState v then .ok () else .error .badState

/-- The light state byte of a boolean: on or off (R47, R113). -/
def boolState (on : Bool) : Byte := if on then 0x20#8 else 0x00#8

/-- The state byte of the LED display: `BLINK` 0 is on, 1 is blink (R111, D22). -/
def ledState (blink : Bool) : Byte := if blink then 0x60#8 else 0x20#8

/-- `is_string` of R103 for the commands that read `TKIND`. -/
def isString : TextKind → Bool
  | .string => true
  | .precomputed => false

/-- One character slot: its code point must be at most `0x7F` (R103). -/
def slotByte (c : BitVec 21) : Except RejectCode Byte :=
  if 0x7F < c.toNat then .error .badCodePoint else .ok (c.extractLsb' 0 8)

/-- The three text bytes, character 0 first. -/
structure TextBytes where
  t0 : Byte
  t1 : Byte
  t2 : Byte
deriving DecidableEq, Repr

/-- `text_bytes(w, is_string)` (R103): the length check of a string, then the slots in the order C0, C1, C2. -/
def textBytes (asString : Bool) (t : TextField) : Except RejectCode TextBytes :=
  if asString && t.tlen != 3#8 then .error .badTextLen
  else
    match slotByte t.c0, slotByte t.c1, slotByte t.c2 with
    | .ok t0, .ok t1, .ok t2 => .ok { t0 := t0, t1 := t1, t2 := t2 }
    | .error e, _, _ => .error e
    | _, .error e, _ => .error e
    | _, _, .error e => .error e

/-- The duration in units of 2^-14 after the policy for durations outside [0, 1] (R114). -/
def policedDuration (policy : FlashPolicy) (dur : BitVec 16) : Except RejectCode Int :=
  match policy with
  | .reject => if dur.toInt < 0 ∨ 16384 < dur.toInt then .error .durationRange else .ok dur.toInt
  | .clamp => .ok (min (max dur.toInt 0) 16384)
  | .literal => .ok dur.toInt

/-- The one-shot state byte of a duration `v / 2^14`: `0x40 + floor(30 × v / 2^14)` (R114). The quotient of integers by a
positive divisor rounds toward minus infinity, as `div` does (00_scope.md §6). -/
def flashState (v : Int) : Byte := BitVec.ofInt 8 (0x40 + (30 * v) / 16384)

/-- Mask byte `k` of the light group: bit `j` is light `7k + j`, bit 7 is 0 (R115, R48). -/
def maskByte (lights : BitVec 35) (k : Nat) : Byte := (lights.extractLsb' (7 * k) 7).setWidth 8

/-- `pack(L)` (R115). -/
def packLights (lights : BitVec 35) : List Byte :=
  [maskByte lights 0, maskByte lights 1, maskByte lights 2, maskByte lights 3, maskByte lights 4]

/-- An outbound message: preamble, payload, terminator (R49). -/
def message (payload : List Byte) : TxResponse := .msg (Config.preamble ++ payload ++ [Config.eox])

/-! ### Codes of the records -/

/-- The number of an event tag, which is also the number of its enable bit (R51, R17). -/
def EvTag.index : EvTag → Nat
  | .padDown => 0
  | .padUp => 1
  | .buttonDown => 2
  | .buttonUp => 3
  | .knob => 4
  | .rotaryLeft => 5
  | .rotaryRight => 6
  | .xy => 7

/-- The reason codes of R52. -/
def reasonCode : InvReason → BitVec 3
  | .short => 1#3
  | .badPreamble => 2#3
  | .unknownClass => 3#3
  | .overflow => 4#3

/-- The packed event word (R51): `TAG[3:0]`, `A[12:4]`, `B[20:13]`, `REASON[23:21]`. -/
def packedWord : EvtRecord → BitVec 24
  | .ev e => (e.b ++ e.a ++ BitVec.ofNat 4 e.tag.index).setWidth 24
  | .inv r => (reasonCode r.reason ++ 0#8 ++ 0#9 ++ 8#4).setWidth 24

/-- The reject codes of R53. -/
def rejectCode : RejectCode → BitVec 3
  | .badTextLen => 1#3
  | .badCodePoint => 2#3
  | .badState => 3#3
  | .badTarget => 4#3
  | .durationRange => 5#3
  | .illegalOp => 6#3

/-- The kind of a response record (R53). -/
def responseKind : TxResponse → BitVec 2
  | .msg _ => 0#2
  | .bytes3 _ _ _ => 1#2
  | .reject _ => 2#2

end Sys2Proof.Machine
end

