-- ==== Sys2Proof/Machine/Classifier.lean ====
section
/-! DEFINITION. The FRAME family (41_rx_classifier.md): what a delivered frame of each class does, and the delivery of a
frame (R80). The framer has returned to IDLE before any of these runs (R143); none of them touches it. -/

namespace Sys2Proof.Machine

/-- `dispatch(e)` (R90): a disabled event is consumed with no effect. -/
def dispatch (e : EvRecord) (s : State) : State :=
  if s.ctrlEn.getLsbD e.tag.index then emitEvt (.ev e) s else s

/-- R81: pad `d1 - 64`, velocity `d2`. -/
def execPadDown (d1 d2 : Byte) (s : State) : Host.Outcome State Fault Refusal :=
  .next (dispatch { tag := .padDown, a := d1.setWidth 9 - 64#9, b := d2 } s)

/-- R82: pad `d1`; `d2` is not read into the event. -/
def execPadUp (d1 _d2 : Byte) (s : State) : Host.Outcome State Fault Refusal :=
  .next (dispatch { tag := .padUp, a := d1.setWidth 9, b := 0#8 } s)

/-- R83: button `d1 + 16`, 9 bits with no wrap. -/
def execButtonDown (d1 : Byte) (s : State) : Host.Outcome State Fault Refusal :=
  .next (dispatch { tag := .buttonDown, a := d1.setWidth 9 + 16#9, b := 0#8 } s)

/-- R84: button `d1 + 16`. -/
def execButtonUp (d1 _d2 : Byte) (s : State) : Host.Outcome State Fault Refusal :=
  .next (dispatch { tag := .buttonUp, a := d1.setWidth 9 + 16#9, b := 0#8 } s)

/-- R85: index `d1`, value `d2`. -/
def execKnob (d1 d2 : Byte) (s : State) : Host.Outcome State Fault Refusal :=
  .next (dispatch { tag := .knob, a := d1.setWidth 9, b := d2 } s)

/-- R86: `d1` is not read. -/
def execRotaryRight (_d1 : Byte) (s : State) : Host.Outcome State Fault Refusal :=
  .next (dispatch { tag := .rotaryRight, a := 0#9, b := 0#8 } s)

/-- R87: `d1` is not read. -/
def execRotaryLeft (_d1 _d2 : Byte) (s : State) : Host.Outcome State Fault Refusal :=
  .next (dispatch { tag := .rotaryLeft, a := 0#9, b := 0#8 } s)

/-- R88: x `d1`, y `d2`. -/
def execXy (d1 d2 : Byte) (s : State) : Host.Outcome State Fault Refusal :=
  .next (dispatch { tag := .xy, a := d1.setWidth 9, b := d2 } s)

/-- R89: `raise DecodeError(UNKNOWN_CLASS, f)`. -/
def execInvalidUnknownClass (f : List Byte) (s : State) : Host.Outcome State Fault Refusal :=
  .next (raiseDecodeError .unknownClass f s)

/-- Run the class of a validated frame. -/
def execFrameClass : FrameClass → State → Host.Outcome State Fault Refusal
  | .padDown d1 d2, s => execPadDown d1 d2 s
  | .padUp d1 d2, s => execPadUp d1 d2 s
  | .buttonDown d1, s => execButtonDown d1 s
  | .buttonUp d1 d2, s => execButtonUp d1 d2 s
  | .knob d1 d2, s => execKnob d1 d2 s
  | .rotaryRight d1, s => execRotaryRight d1 s
  | .rotaryLeft d1 d2, s => execRotaryLeft d1 d2 s
  | .xy d1 d2, s => execXy d1 d2 s
  | .unknown f, s => execInvalidUnknownClass f s

/-- `deliver(f)` (R80): validate, extract, classify, and run the class; a frame that fails validation takes the
invalid-message path with the reason of the first failing check (R72, R143). -/
def deliver (f : List Byte) (s : State) : Host.Outcome State Fault Refusal :=
  match decodeFrame s.params f with
  | .error r => .next (raiseDecodeError r f s)
  | .ok k => execFrameClass k s

end Sys2Proof.Machine
end

