-- ==== Sys2Proof/Machine/Framer.lean ====
section
/-! DEFINITION. The RX family (40_rx_framer.md): RX_BYTE runs exactly one of R61 to R68. -/

namespace Sys2Proof.Machine

/-- R64: store the byte, unless the frame would leave no room for its terminator within `MAX_FRAME_LEN`. -/
def rxInside (b : Byte) (s : State) : Host.Outcome State Fault Refusal :=
  if s.frLen.toNat < s.params.maxFrameLen - 1 then outcomeOf (appendByte b s)
  else .next (setOverflow (setFrState .discard s))

/-- R65: the frame is complete; the framer returns to IDLE and the frame is delivered in the same step. -/
def rxEnd (s : State) : Host.Outcome State Fault Refusal :=
  match bufferedBytes s with
  | .error e => .fault e
  | .ok bytes => deliver (bytes ++ [Config.eox]) (closeFrame s)

/-- R66: the open frame is abandoned without a record and a new one opens. -/
def rxRestart (s : State) : Host.Outcome State Fault Refusal := outcomeOf (openFrame (setAbort s))

/-- R68: the over-long frame ends and is reported with its retained prefix. -/
def rxEndOverlong (s : State) : Host.Outcome State Fault Refusal :=
  match bufferedBytes s with
  | .error e => .fault e
  | .ok bytes => .next (raiseDecodeError .overflow (bytes ++ [Config.eox]) (closeFrame s))

/-- The bytes the real-time filter drops (R61). -/
def rxFiltered (b : Byte) (s : State) : Bool :=
  s.params.rtFilter && s.frState != .idle && decide (0xF8 ≤ b.toNat)

/-- R60. Bytes outside a frame (R63), inside an over-long one (R67) and dropped by the filter (R61) change nothing. -/
def execRxByte (b : Byte) (s : State) : Host.Outcome State Fault Refusal :=
  if rxFiltered b s then .next s
  else
    match s.frState with
    | .idle => if b = Config.sox then outcomeOf (openFrame s) else .next s
    | .recv =>
      if b = Config.eox then rxEnd s
      else if b = Config.sox then rxRestart s
      else rxInside b s
    | .discard =>
      if b = Config.eox then rxEndOverlong s
      else if b = Config.sox then rxRestart s
      else .next s

end Sys2Proof.Machine
end

