-- ==== Sys2Proof/Machine/TxBuilder.lean ====
section
/-! DEFINITION. The TXCMD family (42_tx_builder.md): each command appends one record to `TXR` and changes nothing else
(R100, R146). A response depends on the operands and the parameters alone (R22). -/

namespace Sys2Proof.Machine

/-! ### Responses -/

/-- R110 -/
def encodeTextResponse (t : TextField) : TxResponse :=
  orReject <|
    match textBytes true t with
    | .error e => .error e
    | .ok x => .ok (.bytes3 x.t0 x.t1 x.t2)

/-- R111: text forward. -/
def setLedResponse (kind : TextKind) (t : TextField) (blink : Bool) : TxResponse :=
  orReject <|
    match textBytes (isString kind) t with
    | .error e => .error e
    | .ok x => .ok (message [0x22#8, 0x04#8, ledState blink, x.t0, x.t1, x.t2])

/-- The single-light message (R49). -/
def lightMessage (target state : Byte) : TxResponse := message [0x01#8, target, state]

/-- R112 -/
def setLightResponse (target state : Byte) : TxResponse :=
  orReject <|
    match checkTarget target with
    | .error e => .error e
    | .ok _ =>
      match checkState state with
      | .error e => .error e
      | .ok _ => .ok (lightMessage target state)

/-- R113 -/
def setLightBoolResponse (target : Byte) (on : Bool) : TxResponse :=
  orReject <|
    match checkTarget target with
    | .error e => .error e
    | .ok _ => .ok (lightMessage target (boolState on))

/-- R114 -/
def flashLightResponse (policy : FlashPolicy) (target : Byte) (dur : BitVec 16) : TxResponse :=
  orReject <|
    match checkTarget target with
    | .error e => .error e
    | .ok _ =>
      match policedDuration policy dur with
      | .error e => .error e
      | .ok v => .ok (lightMessage target (flashState v))

/-- R116: text reversed. -/
def setLightGroupResponse (kind : TextKind) (t : TextField) (lights : BitVec 35) : TxResponse :=
  orReject <|
    match textBytes (isString kind) t with
    | .error e => .error e
    | .ok x =>
      .ok (message ([0x3F#8, 0x0A#8, 0x01#8] ++ packLights lights ++ [0x00#8] ++ [x.t2, x.t1, x.t0]))

/-- R117: `raise InvalidArgument(ILLEGAL_OP)`. -/
def reservedResponse : TxResponse := orReject (.error .illegalOp)

/-! ### Meanings -/

/-- R105 -/
def execNativeModeOn (s : State) : Host.Outcome State Fault Refusal := .next (respond (.msg Config.seqNativeOn) s)

/-- R106 -/
def execNativeModeOff (s : State) : Host.Outcome State Fault Refusal := .next (respond (.msg Config.seqNativeOff) s)

/-- R107 -/
def execEnableOutput (s : State) : Host.Outcome State Fault Refusal :=
  .next (respond (.msg Config.seqEnableOutput) s)

/-- R108 -/
def execInit (s : State) : Host.Outcome State Fault Refusal := .next (respond (.msg Config.seqInit) s)

/-- R109 -/
def execTest (s : State) : Host.Outcome State Fault Refusal := .next (respond (.msg Config.seqTest) s)

/-- R110 -/
def execEncodeText (t : TextField) (s : State) : Host.Outcome State Fault Refusal :=
  .next (respond (encodeTextResponse t) s)

/-- R111 -/
def execSetLed (kind : TextKind) (t : TextField) (blink : Bool) (s : State) : Host.Outcome State Fault Refusal :=
  .next (respond (setLedResponse kind t blink) s)

/-- R112 -/
def execSetLight (target state : Byte) (s : State) : Host.Outcome State Fault Refusal :=
  .next (respond (setLightResponse target state) s)

/-- R113 -/
def execSetLightBool (target : Byte) (on : Bool) (s : State) : Host.Outcome State Fault Refusal :=
  .next (respond (setLightBoolResponse target on) s)

/-- R114 -/
def execFlashLight (target : Byte) (dur : BitVec 16) (s : State) : Host.Outcome State Fault Refusal :=
  .next (respond (flashLightResponse s.params.flashPolicy target dur) s)

/-- R116 -/
def execSetLightGroup (kind : TextKind) (t : TextField) (lights : BitVec 35) (s : State) :
    Host.Outcome State Fault Refusal :=
  .next (respond (setLightGroupResponse kind t lights) s)

/-- R117, OP = 11 -/
def execReservedOp11 (s : State) : Host.Outcome State Fault Refusal := .next (respond reservedResponse s)

/-- R117, OP = 12 -/
def execReservedOp12 (s : State) : Host.Outcome State Fault Refusal := .next (respond reservedResponse s)

/-- R117, OP = 13 -/
def execReservedOp13 (s : State) : Host.Outcome State Fault Refusal := .next (respond reservedResponse s)

/-- R117, OP = 14 -/
def execReservedOp14 (s : State) : Host.Outcome State Fault Refusal := .next (respond reservedResponse s)

/-- R117, OP = 15 -/
def execReservedOp15 (s : State) : Host.Outcome State Fault Refusal := .next (respond reservedResponse s)

end Sys2Proof.Machine
end

