-- ==== Sys2Proof/Machine/Dispatch.lean ====
section
/-! DEFINITION. One arm per instruction: its meaning. -/

namespace Sys2Proof.Machine

/-- The meaning of an instruction in a state. -/
def exec (i : Instr) (s : State) : Host.Outcome State Fault Refusal :=
  match i with
  | .nativeModeOn => Sys2Proof.Machine.execNativeModeOn s
  | .nativeModeOff => Sys2Proof.Machine.execNativeModeOff s
  | .enableOutput => Sys2Proof.Machine.execEnableOutput s
  | .init => Sys2Proof.Machine.execInit s
  | .test => Sys2Proof.Machine.execTest s
  | .encodeText t => Sys2Proof.Machine.execEncodeText t s
  | .setLed k t blink => Sys2Proof.Machine.execSetLed k t blink s
  | .setLight target state => Sys2Proof.Machine.execSetLight target state s
  | .setLightBool target on => Sys2Proof.Machine.execSetLightBool target on s
  | .flashLight target dur => Sys2Proof.Machine.execFlashLight target dur s
  | .setLightGroup k t lights => Sys2Proof.Machine.execSetLightGroup k t lights s
  | .reservedOp11 => Sys2Proof.Machine.execReservedOp11 s
  | .reservedOp12 => Sys2Proof.Machine.execReservedOp12 s
  | .reservedOp13 => Sys2Proof.Machine.execReservedOp13 s
  | .reservedOp14 => Sys2Proof.Machine.execReservedOp14 s
  | .reservedOp15 => Sys2Proof.Machine.execReservedOp15 s
  | .csrRead a => Sys2Proof.Machine.execCsrRead a s
  | .csrWrite a d => Sys2Proof.Machine.execCsrWrite a d s
  | .rxByte b => Sys2Proof.Machine.execRxByte b s
  | .reset => Sys2Proof.Machine.execReset s
  | .padDown d1 d2 => Sys2Proof.Machine.execPadDown d1 d2 s
  | .padUp d1 d2 => Sys2Proof.Machine.execPadUp d1 d2 s
  | .buttonDown d1 => Sys2Proof.Machine.execButtonDown d1 s
  | .buttonUp d1 d2 => Sys2Proof.Machine.execButtonUp d1 d2 s
  | .knob d1 d2 => Sys2Proof.Machine.execKnob d1 d2 s
  | .rotaryRight d1 => Sys2Proof.Machine.execRotaryRight d1 s
  | .rotaryLeft d1 d2 => Sys2Proof.Machine.execRotaryLeft d1 d2 s
  | .xy d1 d2 => Sys2Proof.Machine.execXy d1 d2 s
  | .invalidUnknownClass f => Sys2Proof.Machine.execInvalidUnknownClass f s

end Sys2Proof.Machine
end

