-- ==== Sys2Proof/Machine/Step.lean ====
section
/-! DEFINITION. One step: the host's oldest pending transaction, decoded and executed (R3). -/

namespace Sys2Proof.Machine

/-- One step of the machine. An instance with illegal parameters is refused (R5, R104); with no transaction pending the run
has ended (R171). -/
def step (s : State) : Host.Outcome State Fault Refusal :=
  if s.params.legal then
    match takeTransaction s with
    | none => .refused .noTransaction
    | some (t, s') => exec (decodeTransaction t) s'
  else .refused .illegalParameters

/-- The instruction with word `w` of the opcode table as the host's next one. A transaction is put before the host's pending
ones. A frame class is reached by the byte that ends its frame: the framer holds the frame's other bytes and the terminator
is put before the pending transactions (log 6, log 7). -/
def State.withFetchWord (s : State) (nbits w : Nat) : State :=
  match layOut nbits w with
  | .error _ => s
  | .ok (.port t) => issue [t] s
  | .ok (.frame f) => issue [.rx Config.eox] (stageFrame f s)

end Sys2Proof.Machine
end

