-- ==== Sys2Proof/Machine/HostProgram.lean ====
section
/-! DEFINITION. Host programs (R58, R59) and the conversions the host owes the block (R166 to R169). Nothing here changes a
step: it says which transactions a line of a program issues and which bytes the host sends on. -/

namespace Sys2Proof.Machine

/-- The light states the `setlight` pseudo-instruction names (R59). -/
inductive LightState where
  | off
  | on
  | blink
  | oneshot (sub : BitVec 5)
deriving DecidableEq, Repr

/-- One line of a host program: the five transactions of R58 and the pseudo-instructions of R59. -/
inductive HostLine where
  | rx (b : Byte)
  | cmd (op : BitVec 4) (fields : CmdFields)
  | csrr (a : BitVec 4)
  | csrw (a : BitVec 4) (d : BitVec 32)
  | reset
  | rxmsg (bytes : List Byte)
  | setlight (target : Byte) (state : LightState)
  | setlightBool (target : Byte) (on : Bool)
  | flash (target : Byte) (dur : BitVec 16)
  | text (s : List Char)
  | led (s : List Char) (blink : Bool)
  | ledBytes (bytes : List Byte) (blink : Bool)
  | lightgroup (s : List Char) (lights : List Nat)
  | lightgroupBytes (bytes : List Byte) (lights : List Nat)
  | handlers (mask : BitVec 8) (handlerInvalid : Bool)
  | nativeOn
  | nativeOff
  | enableOutput
  | init
  | test
deriving DecidableEq, Repr

/-- The text operand of a string (R169): the length saturated at 255 and the first three code points, 0 for a missing
character. -/
def textOfString (s : List Char) : TextField where
  tlen := BitVec.ofNat 8 (min s.length 255)
  c0 := BitVec.ofNat 21 ((s[0]?.map Char.toNat).getD 0)
  c1 := BitVec.ofNat 21 ((s[1]?.map Char.toNat).getD 0)
  c2 := BitVec.ofNat 21 ((s[2]?.map Char.toNat).getD 0)

/-- The text operand of precomputed bytes (R169); other than three bytes the host must reject. -/
def textOfBytes : List Byte → Option TextField
  | [x0, x1, x2] => some { tlen := 0#8, c0 := x0.setWidth 21, c1 := x1.setWidth 21, c2 := x2.setWidth 21 }
  | _ => none

/-- The `LIGHTS` field of the indices mapped to true (R168); an index outside 0 to 34 the host must reject. -/
def lightsOf : List Nat → Option (BitVec 35)
  | [] => some 0#35
  | i :: is =>
    match lightsOf is with
    | none => none
    | some l => if i < 35 then some (l ||| BitVec.ofNat 35 (2 ^ i)) else none

/-- The light state byte of a state name (R47). -/
def stateByteOf : LightState → Byte
  | .off => 0x00#8
  | .on => 0x20#8
  | .blink => 0x60#8
  | .oneshot sub => 0x40#8 + sub.setWidth 8

/-- A `DUR` that gives flash speed `speed`: `ceil(speed × 16384 / 30)` (R167). -/
def durationForSpeed (speed : Nat) : BitVec 16 := BitVec.ofNat 16 ((speed * 16384 + 29) / 30)

/-- The TX transaction of an operation code and its fields. -/
def issueCmd (op : BitVec 4) (f : CmdFields) : Transaction := .cmd (cmdWord op f)

/-- The transactions a line issues, or none where the host must reject it (R58, R59, R168, R169). -/
def expand : HostLine → Option (List Transaction)
  | .rx b => some [.rx b]
  | .cmd op f => some [issueCmd op f]
  | .csrr a => some [.csr (csrWord false a 0#32)]
  | .csrw a d => some [.csr (csrWord true a d)]
  | .reset => some [.reset]
  | .rxmsg bs => some (bs.map Transaction.rx)
  | .setlight t st => some [issueCmd 7#4 { target := t, state := stateByteOf st }]
  | .setlightBool t on => some [issueCmd 8#4 { target := t, b := on }]
  | .flash t dur => some [issueCmd 9#4 { target := t, dur := dur }]
  | .text s => some [issueCmd 5#4 (textOfString s).fields]
  | .led s blink => some [issueCmd 6#4 { (textOfString s).fields with blink := blink }]
  | .ledBytes bs blink =>
    (textOfBytes bs).map (fun t => [issueCmd 6#4 { t.fields with tkind := true, blink := blink }])
  | .lightgroup s is =>
    (lightsOf is).map (fun l => [issueCmd 10#4 { (textOfString s).fields with lights := l }])
  | .lightgroupBytes bs is =>
    match textOfBytes bs, lightsOf is with
    | some t, some l => some [issueCmd 10#4 { t.fields with tkind := true, lights := l }]
    | _, _ => none
  | .handlers mask inv => some [.csr (csrWord true 0#4 (mask.setWidth 32 ||| if inv then 0x100#32 else 0#32))]
  | .nativeOn => some [issueCmd 0#4 {}]
  | .nativeOff => some [issueCmd 1#4 {}]
  | .enableOutput => some [issueCmd 2#4 {}]
  | .init => some [issueCmd 3#4 {}]
  | .test => some [issueCmd 4#4 {}]

/-- The transactions of a whole program, or none where the host must reject a line. -/
def expandProgram : List HostLine → Option (List Transaction)
  | [] => some []
  | l :: ls =>
    match expand l, expandProgram ls with
    | some ts, some us => some (ts ++ us)
    | _, _ => none

/-- What the host transmits of the responses (R166): each outbound message verbatim and whole, in order; a BYTES3 or REJECT
response is not transmitted. -/
def transmitted (out : List Output) : List (List Byte) :=
  out.filterMap (fun o => match o with | .txr (.msg bytes) => some bytes | _ => none)

/-- Byte lane `k` of a CSR for a host bus that splits it: bit `8k + j` is bit `j` of the lane (R35). -/
def csrLane (d : BitVec 32) (k : Nat) : Byte := d.extractLsb' (8 * k) 8

end Sys2Proof.Machine
end

