-- ==== Sys2Proof/Safety.lean ====
section
/-! DEFINITION. What a safe state is: the shape the framer keeps `FR_BUF`, `FR_LEN` and `FR_STATE` in, and the form of
every record emitted. Claims are stated in these terms. -/

namespace Sys2Proof.Safety

open Sys2Proof.Machine

/-- `FR_BUF` holds exactly the bytes `bs`, in entries 0 to `FR_LEN - 1`. -/
def HoldsBytes (s : State) (bs : List Byte) : Prop :=
  bs.length = s.frLen.toNat ∧ bs.length ≤ s.params.maxFrameLen ∧ ∀ i, Memory.read s.frBuf i = bs[i]?

/-- The state after the framer has closed a frame: IDLE, `FR_LEN` 0, no entry holding a value (R65, R68). -/
def closed (s : State) : State := { s with frBuf := [], frLen := 0#16, frState := .idle }

/-- The framer's state between steps (R12, R13, R62, R64, R66, R61). -/
structure FramerInv (s : State) : Prop where
  legal : s.params.legal = true
  canonical : Memory.wf s.frBuf = true
  filled : ∀ i, (Memory.read s.frBuf i).isSome = true ↔ i < s.frLen.toNat
  room : s.frLen.toNat + 1 ≤ s.params.maxFrameLen
  idle_iff : s.frState = .idle ↔ s.frLen = 0#16
  full : s.frState = .discard → s.frLen.toNat + 1 = s.params.maxFrameLen
  start : s.frState ≠ .idle → Memory.read s.frBuf 0 = some Config.sox
  inner : ∀ i b, 0 < i → Memory.read s.frBuf i = some b →
    b ≠ Config.sox ∧ b ≠ Config.eox ∧ (s.params.rtFilter = true → b.toNat < 0xF8)

/-- The ranges of a classified event (R81 to R88). -/
def EvOk (e : EvRecord) : Prop :=
  match e.tag with
  | .padDown => e.a.toNat ≤ 191
  | .padUp => e.a.toNat < 64 ∧ e.b = 0#8
  | .buttonDown => 16 ≤ e.a.toNat ∧ e.a.toNat ≤ 271 ∧ e.b = 0#8
  | .buttonUp => 16 ≤ e.a.toNat ∧ e.a.toNat ≤ 271 ∧ e.b = 0#8
  | .knob => e.a.toNat ≤ 255
  | .rotaryLeft => e.a = 0#9 ∧ e.b = 0#8
  | .rotaryRight => e.a = 0#9 ∧ e.b = 0#8
  | .xy => e.a.toNat ≤ 255

/-- The form of an Invalid record (R51, R52, R141): a frame from its `F0` to its `F7` with neither byte between, of length
2 to `MAX_FRAME_LEN`, and what its reason says of it. -/
structure InvOk (p : Params) (r : InvRecord) : Prop where
  head : r.raw.head? = some Config.sox
  last : r.raw.getLast? = some Config.eox
  shortest : 2 ≤ r.raw.length
  longest : r.raw.length ≤ p.maxFrameLen
  inner : ∀ i b, 0 < i → i + 1 < r.raw.length → r.raw[i]? = some b → b ≠ Config.sox ∧ b ≠ Config.eox
  cause : match r.reason with
    | .short => r.raw.length < p.minDecodeLen
    | .badPreamble => p.preambleCheck = true ∧ p.minDecodeLen ≤ r.raw.length ∧ r.raw.take 5 ≠ Config.preamble
    | .unknownClass => p.minDecodeLen ≤ r.raw.length ∧ isKnownClass (r.raw.getD 5 0#8) = false
    | .overflow => r.raw.length = p.maxFrameLen

/-- The form of a response (R49, R53, R104): a message is the preamble, a payload of at least one byte none of which is
above `0x7F`, and the terminator; text bytes are at most `0x7F`. -/
def TxOk : TxResponse → Prop
  | .msg bytes => ∃ payload, bytes = Config.preamble ++ payload ++ [Config.eox] ∧ payload ≠ [] ∧
      ∀ b ∈ payload, b.toNat ≤ 0x7F
  | .bytes3 t0 t1 t2 => t0.toNat ≤ 0x7F ∧ t1.toNat ≤ 0x7F ∧ t2.toNat ≤ 0x7F
  | .reject _ => True

/-- The form of one output. -/
def OutputOk (p : Params) : Output → Prop
  | .evt (.ev e) => EvOk e
  | .evt (.inv r) => InvOk p r
  | .err r => InvOk p r
  | .txr r => TxOk r
  | .csr _ => True

/-- The invariant of the machine: the framer's shape, and the form of every output so far. -/
structure MachineInv (s : State) : Prop where
  framer : FramerInv s
  outputs : ∀ o ∈ s.output, OutputOk s.params o

/-- The event a class other than an unknown one gives (R81 to R88). -/
def eventOf : FrameClass → Option EvRecord
  | .padDown d1 d2 => some { tag := .padDown, a := d1.setWidth 9 - 64#9, b := d2 }
  | .padUp d1 _ => some { tag := .padUp, a := d1.setWidth 9, b := 0#8 }
  | .buttonDown d1 => some { tag := .buttonDown, a := d1.setWidth 9 + 16#9, b := 0#8 }
  | .buttonUp d1 _ => some { tag := .buttonUp, a := d1.setWidth 9 + 16#9, b := 0#8 }
  | .knob d1 d2 => some { tag := .knob, a := d1.setWidth 9, b := d2 }
  | .rotaryRight _ => some { tag := .rotaryRight, a := 0#9, b := 0#8 }
  | .rotaryLeft _ _ => some { tag := .rotaryLeft, a := 0#9, b := 0#8 }
  | .xy d1 d2 => some { tag := .xy, a := d1.setWidth 9, b := d2 }
  | .unknown _ => none

/-- The state with `ts` as all the host still has to issue. -/
def withInput (ts : List Transaction) (s : State) : State := { s with input := ts }

/-- The run that consumes every pending transaction (R171). -/
def runAll (s : State) : Host.Outcome State Fault Refusal := Host.Core.run Sys2Proof.core s.input.length s

/-- The transactions of the TX port. -/
def isTx : Transaction → Bool
  | .cmd _ => true
  | .rx _ => false
  | .csr _ => false
  | .reset => false

/-- The transactions that bring a byte string to the RX port (R170). -/
def rxOf (bs : List Byte) : List Transaction := bs.map Transaction.rx

end Sys2Proof.Safety
end

