-- ==== Sys2Proof/Certificates/Slice0/Obligations.lean ====
section
/-! DEFINITION. The statements about the model, each from the numbered rules of spec/. -/

section

open Sys2Proof Sys2Proof.Machine Sys2Proof.Safety

/-! ### Reset and the step -/

/-- R24: the value of every register and flag after RESET, and no entry of FR_BUF can be read; the state a run starts from is
one of those states. -/
def Obligations.ResetStateValues : Prop :=
  ∀ t : State, (t = State.reset ∨ ∃ s, exec .reset s = .next t) →
    t.frState = .idle ∧ t.frLen = 0#16 ∧ (∀ i, Memory.read t.frBuf i = none) ∧ t.ctrlEn = 0x00#8 ∧
    t.ctrlInvMode = .signal ∧ csrValue 0#4 t = 0#32 ∧ t.decodeErr = false ∧ t.overflow = false ∧ t.abort = false ∧
    csrValue 1#4 t = 0#32 ∧ irq t = false

/-- R160: RESET puts every piece of state at its reset value, emits nothing, retracts nothing and does not set ABORT. -/
def Obligations.ResetTransactionRestoresReset : Prop :=
  ∀ s : State, exec .reset s =
    .next { State.reset with params := s.params, input := s.input, output := s.output }

/-- A step runs the oldest pending transaction's instruction on the state without that transaction (R3). The queue is the
model's (log 3). -/
def Obligations.StepRunsTheDecodedTransaction : Prop :=
  ∀ (s : State) (t : Transaction) (rest : List Transaction), s.params.legal = true → s.input = t :: rest →
    step s = exec (decodeTransaction t) { s with input := rest }

/-- Two states in which a step is refused: an instance that R5 does not allow, whatever is pending, and a legal instance whose
host has no further transaction (R171). The two names are the model's (log 3, log 8). -/
def Obligations.WhereStepIsRefused : Prop :=
  (∀ s : State, s.params.legal = false → step s = .refused .illegalParameters) ∧
  (∀ s : State, s.params.legal = true → s.input = [] → step s = .refused .noTransaction)

/-- R65, R80: RX_BYTE of the F7 that ends a valid frame runs the instruction of the frame's class, on the state with the frame
closed. -/
def Obligations.EndOfValidFrameRunsItsClass : Prop :=
  ∀ (s : State) (bs : List Byte) (k : FrameClass), s.frState = .recv → HoldsBytes s bs →
    decodeFrame s.params (bs ++ [0xF7#8]) = .ok k → exec (.rxByte 0xF7#8) s = exec k.toInstr (closed s)

/-- R140: from every state of the invariant with a transaction pending the block goes on, whatever the transaction. -/
def Obligations.NoTransactionStopsTheBlock : Prop :=
  ∀ s : State, MachineInv s → s.input ≠ [] → ∃ t, step s = .next t

/-- Every step keeps the invariant: the framer's buffer, count and state agree, memory stays canonical, and every output
has the form the rules give it. -/
def Obligations.StepKeepsTheInvariant : Prop :=
  ∀ s t : State, MachineInv s → step s = .next t → MachineInv t

/-- The reset state meets the invariant. -/
def Obligations.ResetMeetsTheInvariant : Prop := MachineInv State.reset

/-! ### Fixed messages and text -/

/-- R105 to R109: each fixed command answers its sequence, whatever the state, and changes nothing else. -/
def Obligations.FixedCommandsAnswerTheirSequence : Prop :=
  ∀ s : State,
    exec .nativeModeOn s = .next { s with output := s.output ++ [.txr (.msg Config.seqNativeOn)] } ∧
    exec .nativeModeOff s = .next { s with output := s.output ++ [.txr (.msg Config.seqNativeOff)] } ∧
    exec .enableOutput s = .next { s with output := s.output ++ [.txr (.msg Config.seqEnableOutput)] } ∧
    exec .init s = .next { s with output := s.output ++ [.txr (.msg Config.seqInit)] } ∧
    exec .test s = .next { s with output := s.output ++ [.txr (.msg Config.seqTest)] }

/-- R104: the form of the five sequences, whatever their open payload bytes are. -/
def Obligations.FixedSequencesHaveTheirForm : Prop :=
  (∀ q ∈ [Config.seqNativeOn, Config.seqNativeOff, Config.seqEnableOutput, Config.seqInit, Config.seqTest],
    ∃ p : List Byte, q = [0xF0#8, 0x42#8, 0x40#8, 0x6E#8, 0x08#8] ++ p ++ [0xF7#8] ∧ 1 ≤ p.length ∧
      ∀ b ∈ p, b.toNat ≤ 0x7F) ∧
  Config.seqNativeOn[5]? = some 0x00#8 ∧ Config.seqNativeOff[5]? = some 0x00#8 ∧ Config.seqInit[5]? = some 0x3F#8

/-- R110: ENCODE_TEXT answers the three code points in order, or rejects the length, then a code point above 0x7F. -/
def Obligations.EncodeTextResult : Prop :=
  ∀ (s : State) (t : TextField),
    (t.tlen ≠ 3#8 → exec (.encodeText t) s = .next { s with output := s.output ++ [.txr (.reject .badTextLen)] }) ∧
    (t.tlen = 3#8 → (0x7F < t.c0.toNat ∨ 0x7F < t.c1.toNat ∨ 0x7F < t.c2.toNat) →
      exec (.encodeText t) s = .next { s with output := s.output ++ [.txr (.reject .badCodePoint)] }) ∧
    (t.tlen = 3#8 → t.c0.toNat ≤ 0x7F → t.c1.toNat ≤ 0x7F → t.c2.toNat ≤ 0x7F →
      exec (.encodeText t) s = .next { s with output := s.output ++
        [.txr (.bytes3 (BitVec.ofNat 8 t.c0.toNat) (BitVec.ofNat 8 t.c1.toNat) (BitVec.ofNat 8 t.c2.toNat))] })

/-- R110: over accepted texts the result is injective: two texts that give the same three bytes are the same text. -/
def Obligations.EncodeTextInjective : Prop :=
  ∀ (s u v : State) (t t' : TextField) (x y z : Byte),
    exec (.encodeText t) s = .next u → exec (.encodeText t') s = .next v →
    u.output = s.output ++ [.txr (.bytes3 x y z)] → v.output = s.output ++ [.txr (.bytes3 x y z)] → t = t'

/-- R111: SET_LED answers preamble, 22 04, the state byte (0x60 for blink, 0x20 for on), the text FORWARD, F7; only a string
has its length checked. -/
def Obligations.SetLedResult : Prop :=
  ∀ (s : State) (k : TextKind) (t : TextField) (blink : Bool),
    (k = .string → t.tlen ≠ 3#8 →
      exec (.setLed k t blink) s = .next { s with output := s.output ++ [.txr (.reject .badTextLen)] }) ∧
    ((k = .string → t.tlen = 3#8) → (0x7F < t.c0.toNat ∨ 0x7F < t.c1.toNat ∨ 0x7F < t.c2.toNat) →
      exec (.setLed k t blink) s = .next { s with output := s.output ++ [.txr (.reject .badCodePoint)] }) ∧
    ((k = .string → t.tlen = 3#8) → t.c0.toNat ≤ 0x7F → t.c1.toNat ≤ 0x7F → t.c2.toNat ≤ 0x7F →
      exec (.setLed k t blink) s = .next { s with output := s.output ++
        [.txr (.msg [0xF0#8, 0x42#8, 0x40#8, 0x6E#8, 0x08#8, 0x22#8, 0x04#8, if blink then 0x60#8 else 0x20#8,
          BitVec.ofNat 8 t.c0.toNat, BitVec.ofNat 8 t.c1.toNat, BitVec.ofNat 8 t.c2.toNat, 0xF7#8])] })

/-! ### Single light and light group -/

/-- R112: SET_LIGHT checks the target, then the state byte, and answers the single-light message. -/
def Obligations.SetLightResult : Prop :=
  ∀ (s : State) (target state : Byte),
    (0x7F < target.toNat →
      exec (.setLight target state) s = .next { s with output := s.output ++ [.txr (.reject .badTarget)] }) ∧
    (target.toNat ≤ 0x7F →
      ¬(state.toNat = 0x00 ∨ state.toNat = 0x20 ∨ (0x40 ≤ state.toNat ∧ state.toNat ≤ 0x5E) ∨ state.toNat = 0x60) →
      exec (.setLight target state) s = .next { s with output := s.output ++ [.txr (.reject .badState)] }) ∧
    (target.toNat ≤ 0x7F →
      (state.toNat = 0x00 ∨ state.toNat = 0x20 ∨ (0x40 ≤ state.toNat ∧ state.toNat ≤ 0x5E) ∨ state.toNat = 0x60) →
      exec (.setLight target state) s = .next { s with output := s.output ++
        [.txr (.msg [0xF0#8, 0x42#8, 0x40#8, 0x6E#8, 0x08#8, 0x01#8, target, state, 0xF7#8])] })

/-- R113: SET_LIGHT_BOOL answers the single-light message with 0x20 or 0x00, and equals SET_LIGHT with that state byte. -/
def Obligations.SetLightBoolResult : Prop :=
  ∀ (s : State) (target : Byte) (on : Bool),
    (0x7F < target.toNat →
      exec (.setLightBool target on) s = .next { s with output := s.output ++ [.txr (.reject .badTarget)] }) ∧
    (target.toNat ≤ 0x7F → exec (.setLightBool target on) s = .next { s with output := s.output ++
        [.txr (.msg [0xF0#8, 0x42#8, 0x40#8, 0x6E#8, 0x08#8, 0x01#8, target, if on then 0x20#8 else 0x00#8, 0xF7#8])] }) ∧
    exec (.setLightBool target on) s = exec (.setLight target (if on then 0x20#8 else 0x00#8)) s

/-- The duration R114 computes the speed from: the signed field, clamped to [0, 1] under CLAMP. -/
def Sys2Proof.flashDuration (policy : FlashPolicy) (dur : BitVec 16) : Int :=
  if policy = .clamp ∧ dur.toInt < 0 then 0
  else if policy = .clamp ∧ 16384 < dur.toInt then 16384
  else dur.toInt

/-- R114: FLASH_LIGHT checks the target, then under REJECT the duration, and answers the single-light message with state
0x40 + floor(30 × duration): the floor is the one integer `k` with `16384 k ≤ 30 v < 16384 (k + 1)`. -/
def Obligations.FlashLightResult : Prop :=
  ∀ (s : State) (target : Byte) (dur : BitVec 16),
    (0x7F < target.toNat →
      exec (.flashLight target dur) s = .next { s with output := s.output ++ [.txr (.reject .badTarget)] }) ∧
    (target.toNat ≤ 0x7F → s.params.flashPolicy = .reject → (dur.toInt < 0 ∨ 16384 < dur.toInt) →
      exec (.flashLight target dur) s = .next { s with output := s.output ++ [.txr (.reject .durationRange)] }) ∧
    (target.toNat ≤ 0x7F → (s.params.flashPolicy = .reject → 0 ≤ dur.toInt ∧ dur.toInt ≤ 16384) →
      ∀ k : Int, 16384 * k ≤ 30 * flashDuration s.params.flashPolicy dur →
        30 * flashDuration s.params.flashPolicy dur < 16384 * (k + 1) →
        exec (.flashLight target dur) s = .next { s with output := s.output ++
          [.txr (.msg [0xF0#8, 0x42#8, 0x40#8, 0x6E#8, 0x08#8, 0x01#8, target, BitVec.ofInt 8 (0x40 + k), 0xF7#8])] })

/-- R114: the state byte of every accepted flash is in 0x40 to 0x5E under REJECT and CLAMP and in 0x04 to 0x7B under
LITERAL. -/
def Obligations.FlashStateByteRange : Prop :=
  ∀ (s t : State) (target : Byte) (dur : BitVec 16) (bytes : List Byte),
    exec (.flashLight target dur) s = .next t → t.output = s.output ++ [.txr (.msg bytes)] →
    ∃ b : Byte, bytes[7]? = some b ∧
      (s.params.flashPolicy ≠ .literal → 0x40 ≤ b.toNat ∧ b.toNat ≤ 0x5E) ∧
      (s.params.flashPolicy = .literal → 0x04 ≤ b.toNat ∧ b.toNat ≤ 0x7B)

/-- R167: the duration a host sends for a speed of 0 to 30 gives exactly that speed, under every policy. -/
def Obligations.DurationForSpeedGivesSpeed : Prop :=
  ∀ (s : State) (target : Byte) (speed : Nat), target.toNat ≤ 0x7F → speed ≤ 30 →
    exec (.flashLight target (durationForSpeed speed)) s = .next { s with output := s.output ++
      [.txr (.msg [0xF0#8, 0x42#8, 0x40#8, 0x6E#8, 0x08#8, 0x01#8, target, BitVec.ofNat 8 (0x40 + speed), 0xF7#8])] }

/-- R116, R115: SET_LIGHT_GROUP answers preamble, 3F 0A 01, five mask bytes of which bit `j` of byte `k` is light `7k + j`
and bit 7 is 0, the separator 00, the text REVERSED, F7. -/
def Obligations.SetLightGroupResult : Prop :=
  ∀ (s : State) (kind : TextKind) (t : TextField) (lights : BitVec 35),
    (kind = .string → t.tlen ≠ 3#8 →
      exec (.setLightGroup kind t lights) s = .next { s with output := s.output ++ [.txr (.reject .badTextLen)] }) ∧
    ((kind = .string → t.tlen = 3#8) → (0x7F < t.c0.toNat ∨ 0x7F < t.c1.toNat ∨ 0x7F < t.c2.toNat) →
      exec (.setLightGroup kind t lights) s =
        .next { s with output := s.output ++ [.txr (.reject .badCodePoint)] }) ∧
    ((kind = .string → t.tlen = 3#8) → t.c0.toNat ≤ 0x7F → t.c1.toNat ≤ 0x7F → t.c2.toNat ≤ 0x7F →
      ∃ m : List Byte, m.length = 5 ∧
        (∀ k j, k < 5 → j < 7 → (m.getD k 0#8).getLsbD j = lights.getLsbD (7 * k + j)) ∧
        (∀ k, k < 5 → (m.getD k 0#8).getLsbD 7 = false) ∧
        exec (.setLightGroup kind t lights) s = .next { s with output := s.output ++
          [.txr (.msg ([0xF0#8, 0x42#8, 0x40#8, 0x6E#8, 0x08#8, 0x3F#8, 0x0A#8, 0x01#8] ++ m ++
            [0x00#8, BitVec.ofNat 8 t.c2.toNat, BitVec.ofNat 8 t.c1.toNat, BitVec.ofNat 8 t.c0.toNat, 0xF7#8]))] })

/-- R115: light index `i` sets bit `i mod 7` of mask byte `i div 7`, and no other bit of the mask depends on it. -/
def Obligations.LightIndexOwnsOneMaskBit : Prop :=
  ∀ (lights : BitVec 35) (i k j : Nat), i < 35 → k < 5 → j < 8 →
    ((packLights (lights ||| BitVec.ofNat 35 (2 ^ i))).getD k 0#8).getLsbD j =
      (((packLights lights).getD k 0#8).getLsbD j || (k == i / 7 && j == i % 7))

/-- R117: the five reserved operation codes are rejected with ILLEGAL_OP and have no other effect. -/
def Obligations.ReservedOpsAreRejected : Prop :=
  ∀ s : State, ∀ i ∈ [Instr.reservedOp11, Instr.reservedOp12, Instr.reservedOp13, Instr.reservedOp14,
      Instr.reservedOp15],
    exec i s = .next { s with output := s.output ++ [.txr (.reject .illegalOp)] }

/-! ### TX as a whole -/

/-- R100, R22, R146: every command word appends exactly one record to TXR and changes nothing else, and that record depends
on the word and the parameters alone, never on the rest of the state. -/
def Obligations.CommandsAreStateless : Prop :=
  ∀ w : CmdWord, ∃ f : Params → TxResponse, ∀ s : State,
    exec (decodeCmd w) s = .next { s with output := s.output ++ [.txr (f s.params)] }

/-- R44: a command word's response does not depend on bits 159:145 or on a field its operation code does not use. -/
def Obligations.UnusedFieldsAreIgnored : Prop :=
  ∀ w w' : CmdWord, (cmdOp w).toNat = (cmdOp w').toNat →
    ((cmdOp w).toNat ∈ [7, 8, 9] → w.extractLsb' 4 8 = w'.extractLsb' 4 8) →
    ((cmdOp w).toNat = 7 → w.extractLsb' 12 8 = w'.extractLsb' 12 8) →
    ((cmdOp w).toNat = 8 → w.getLsbD 20 = w'.getLsbD 20) →
    ((cmdOp w).toNat = 6 → w.getLsbD 21 = w'.getLsbD 21) →
    ((cmdOp w).toNat = 9 → w.extractLsb' 22 16 = w'.extractLsb' 22 16) →
    ((cmdOp w).toNat ∈ [6, 10] → w.getLsbD 38 = w'.getLsbD 38) →
    ((cmdOp w).toNat ∈ [5, 6, 10] → w.extractLsb' 39 71 = w'.extractLsb' 39 71) →
    ((cmdOp w).toNat = 10 → w.extractLsb' 110 35 = w'.extractLsb' 110 35) →
    ∀ s : State, exec (decodeCmd w) s = exec (decodeCmd w') s

/-! ### Registers -/

/-- R130: a CSR_READ returns the register by the formula of the rule, and changes nothing. -/
def Obligations.CsrReadReturnsTheRegister : Prop :=
  ∀ (s : State) (a : BitVec 4), exec (.csrRead a) s = .next { s with output := s.output ++ [.csr
    (if a = 0#4 then
      ((if s.ctrlInvMode = .handler then 1#32 else 0#32) : BitVec 32) <<< 8 ||| s.ctrlEn.setWidth 32
    else if a = 1#4 then
      s.frLen.setWidth 32 <<< 16 |||
        ((match s.frState with | .idle => 0#32 | .recv => 1#32 | .discard => 2#32) : BitVec 32) <<< 3 |||
        ((if s.abort then 1#32 else 0#32) : BitVec 32) <<< 2 ||| ((if s.overflow then 1#32 else 0#32) : BitVec 32) <<< 1 |||
        (if s.decodeErr then 1#32 else 0#32)
    else 0#32)] }

/-- R131: CSR_WRITE to CTRL sets EN and INV_MODE from bits 8:0, ignores the rest, and changes nothing else; reading CTRL
back gives exactly those nine bits. -/
def Obligations.CsrWriteSetsCtrl : Prop :=
  ∀ (s : State) (d : BitVec 32), ∃ t : State, exec (.csrWrite 0#4 d) s = .next t ∧
    t = { s with ctrlEn := d.setWidth 8, ctrlInvMode := if d.getLsbD 8 then .handler else .signal } ∧
    csrValue 0#4 t = d &&& 0x1FF#32

/-- R132: CSR_WRITE to STATUS clears the sticky bits written with 1 and changes nothing else. -/
def Obligations.CsrWriteClearsStatus : Prop :=
  ∀ (s : State) (d : BitVec 32), exec (.csrWrite 1#4 d) s =
    .next { s with
      decodeErr := s.decodeErr && !d.getLsbD 0
      overflow := s.overflow && !d.getLsbD 1
      abort := s.abort && !d.getLsbD 2 }

/-- R133: an unmapped address reads 0 and a write to it changes nothing. -/
def Obligations.UnmappedCsrReadsZero : Prop :=
  ∀ (s : State) (a : BitVec 4) (d : BitVec 32), 2 ≤ a.toNat →
    exec (.csrWrite a d) s = .next s ∧ exec (.csrRead a) s = .next { s with output := s.output ++ [.csr 0#32] }

/-- R134: a CSR transaction, at every address and in every state of the framer, leaves the framer, the buffer and the
output streams as they were. -/
def Obligations.CsrTransactionsLeaveTheFramer : Prop :=
  ∀ (s : State) (a : BitVec 4) (d : BitVec 32), ∀ i ∈ [Instr.csrRead a, Instr.csrWrite a d],
    ∃ t : State, exec i s = .next t ∧ t.frState = s.frState ∧ t.frLen = s.frLen ∧
      (∀ n, Memory.read t.frBuf n = Memory.read s.frBuf n) ∧ evtOf t.output = evtOf s.output ∧
      errOf t.output = errOf s.output ∧ txrOf t.output = txrOf s.output ∧ t.params = s.params ∧ t.input = s.input

/-- R19: a sticky bit is cleared only by a CSR_WRITE to STATUS with a 1 in its position, or by reset. -/
def Obligations.StickyBitsClearOnlyByWriteOrReset : Prop :=
  ∀ (i : Instr) (s t : State), exec i s = .next t →
    (s.decodeErr = true → t.decodeErr = false → i = .reset ∨ ∃ d, i = .csrWrite 1#4 d ∧ d.getLsbD 0 = true) ∧
    (s.overflow = true → t.overflow = false → i = .reset ∨ ∃ d, i = .csrWrite 1#4 d ∧ d.getLsbD 1 = true) ∧
    (s.abort = true → t.abort = false → i = .reset ∨ ∃ d, i = .csrWrite 1#4 d ∧ d.getLsbD 2 = true)

/-- R20, R149: irq equals DECODE_ERR; it rises only when a decode error is signalled under INV_MODE = 0, with its record on
ERR in the same step. -/
def Obligations.IrqRisesOnlyOnSignalledError : Prop :=
  (∀ s : State, irq s = s.decodeErr) ∧
  ∀ (i : Instr) (s t : State), exec i s = .next t → irq s = false → irq t = true →
    s.ctrlInvMode = .signal ∧ (∃ r, t.output = s.output ++ [.err r]) ∧
      ((∃ b, i = .rxByte b) ∨ ∃ f, i = .invalidUnknownClass f)

/-! ### The framer -/

/-- R61: with the filter on and a frame open, a byte 0xF8 to 0xFF changes nothing. -/
def Obligations.FilteredByteChangesNothing : Prop :=
  ∀ (s : State) (b : Byte), s.params.rtFilter = true → s.frState ≠ .idle → 0xF8 ≤ b.toNat →
    exec (.rxByte b) s = .next s

/-- R62: in IDLE an F0 opens a frame: FR_BUF[0] holds it, FR_LEN is 1, the state is RECV, and nothing else changes. -/
def Obligations.FrameStartOpensAFrame : Prop :=
  ∀ s : State, s.params.legal = true → s.frState = .idle →
    ∃ t : State, exec (.rxByte 0xF0#8) s = .next t ∧
      t = { s with frBuf := t.frBuf, frLen := 1#16, frState := .recv } ∧ Memory.read t.frBuf 0 = some 0xF0#8 ∧
      (∀ i, 0 < i → Memory.read t.frBuf i = none) ∧ Memory.wf t.frBuf = true

/-- R63: in IDLE every byte but F0 is discarded with no effect. -/
def Obligations.ByteOutsideAFrameIsDiscarded : Prop :=
  ∀ (s : State) (b : Byte), s.frState = .idle → b ≠ 0xF0#8 → exec (.rxByte b) s = .next s

/-- R64: in RECV a byte that is neither F0 nor F7 nor filtered is stored at FR_BUF[FR_LEN] and counted, every other entry
staying as it was, while FR_LEN < MAX_FRAME_LEN - 1; otherwise it is dropped, the state becomes DISCARD and OVERFLOW is
set. -/
def Obligations.ByteInsideAFrame : Prop :=
  ∀ (s : State) (b : Byte), s.params.legal = true → s.frState = .recv → b ≠ 0xF0#8 → b ≠ 0xF7#8 →
    (s.params.rtFilter = true → b.toNat < 0xF8) →
    (s.frLen.toNat < s.params.maxFrameLen - 1 →
      ∃ t : State, exec (.rxByte b) s = .next t ∧ t = { s with frBuf := t.frBuf, frLen := s.frLen + 1#16 } ∧
        t.frLen.toNat = s.frLen.toNat + 1 ∧ Memory.read t.frBuf s.frLen.toNat = some b ∧
        (∀ i, i ≠ s.frLen.toNat → Memory.read t.frBuf i = Memory.read s.frBuf i)) ∧
    (s.params.maxFrameLen - 1 ≤ s.frLen.toNat →
      exec (.rxByte b) s = .next { s with frState := .discard, overflow := true })

/-- R66: in RECV or DISCARD an F0 abandons the open frame with no record, sets ABORT and opens a new frame. -/
def Obligations.StartInsideAFrameAborts : Prop :=
  ∀ s : State, s.params.legal = true → s.frState ≠ .idle →
    ∃ t : State, exec (.rxByte 0xF0#8) s = .next t ∧
      t = { s with frBuf := t.frBuf, frLen := 1#16, frState := .recv, abort := true } ∧
      Memory.read t.frBuf 0 = some 0xF0#8 ∧ (∀ i, 0 < i → Memory.read t.frBuf i = none)

/-- R67: in DISCARD every byte but F0 and F7 is dropped with no effect. -/
def Obligations.ByteOfOverlongFrameIsDropped : Prop :=
  ∀ (s : State) (b : Byte), s.frState = .discard → b ≠ 0xF0#8 → b ≠ 0xF7#8 → exec (.rxByte b) s = .next s

/-- What R143 does with an Invalid record: under SIGNAL it goes to ERR and DECODE_ERR is set, under HANDLER it goes to EVT. -/
def Sys2Proof.reported (r : InvRecord) (s : State) : State :=
  match s.ctrlInvMode with
  | .signal => { s with decodeErr := true, output := s.output ++ [.err r] }
  | .handler => { s with output := s.output ++ [.evt (.inv r)] }

/-- R68, R143: in DISCARD an F7 closes the frame and reports it as Invalid with reason OVERFLOW and its retained bytes, on ERR
with DECODE_ERR set under SIGNAL, on EVT under HANDLER; it is never checked for length, preamble or class. -/
def Obligations.EndOfOverlongFrameReportsOverflow : Prop :=
  ∀ (s : State) (bs : List Byte), s.frState = .discard → HoldsBytes s bs →
    exec (.rxByte 0xF7#8) s = .next (reported ⟨.overflow, bs ++ [0xF7#8]⟩ (closed s))

/-- R72, R69, R70, R143: in RECV an F7 whose frame is shorter than MIN_DECODE_LEN reports SHORT; one that is long enough and
whose first five bytes are not the preamble, with PREAMBLE_CHECK on, reports BAD_PREAMBLE. -/
def Obligations.InvalidFrameReportsItsFirstFailure : Prop :=
  ∀ (s : State) (bs : List Byte) (r : InvReason), s.frState = .recv → HoldsBytes s bs →
    ((bs.length + 1 < s.params.minDecodeLen ∧ r = .short) ∨
      (s.params.minDecodeLen ≤ bs.length + 1 ∧ s.params.preambleCheck = true ∧
        (bs ++ [0xF7#8]).take 5 ≠ [0xF0#8, 0x42#8, 0x40#8, 0x6E#8, 0x08#8] ∧ r = .badPreamble)) →
    exec (.rxByte 0xF7#8) s = .next (reported ⟨r, bs ++ [0xF7#8]⟩ (closed s))

/-- The frame of RX_BYTE: whatever the byte and the branch, TXR and the CSR results, CTRL, the parameters and the pending
transactions stay and the sticky bits are never cleared; a byte other than F0 and F7 emits nothing and leaves every byte of
FR_BUF outside the one it may store; a branch that stores no byte and ends no frame (outside a frame, in DISCARD, filtered,
overflowing) leaves all of FR_BUF, FR_LEN and the outputs; only an F7 returns an open frame to IDLE. -/
def Obligations.RxByteFrame : Prop :=
  ∀ (s t : State) (b : Byte), exec (.rxByte b) s = .next t →
    t.params = s.params ∧ t.ctrlEn = s.ctrlEn ∧ t.ctrlInvMode = s.ctrlInvMode ∧ t.input = s.input ∧
    txrOf t.output = txrOf s.output ∧ csrOf t.output = csrOf s.output ∧
    (s.decodeErr = true → t.decodeErr = true) ∧ (s.overflow = true → t.overflow = true) ∧
    (s.abort = true → t.abort = true) ∧
    (b ≠ 0xF0#8 → b ≠ 0xF7#8 → t.output = s.output ∧
      ∀ i, i ≠ s.frLen.toNat → Memory.read t.frBuf i = Memory.read s.frBuf i) ∧
    (((s.frState = .idle ∧ b ≠ 0xF0#8) ∨ (s.frState = .discard ∧ b ≠ 0xF0#8 ∧ b ≠ 0xF7#8) ∨
        (s.params.rtFilter = true ∧ s.frState ≠ .idle ∧ 0xF8 ≤ b.toNat) ∨
        (s.frState = .recv ∧ b ≠ 0xF0#8 ∧ b ≠ 0xF7#8 ∧ s.params.maxFrameLen - 1 ≤ s.frLen.toNat)) →
      t.output = s.output ∧ t.frLen = s.frLen ∧ ∀ i, Memory.read t.frBuf i = Memory.read s.frBuf i) ∧
    ((t.frState = .idle ∧ s.frState ≠ .idle) → b = 0xF7#8)

/-! ### Frame classes -/

/-- R43, R91: a frame that passes validation is of exactly the class its bytes 5, 6 and 7 select, and of no other; the cases
cover every value. -/
def Obligations.ValidFrameHasItsClass : Prop :=
  ∀ (p : Params) (f : List Byte) (c d1 d2 : Byte), validate p f = none → f[5]? = some c → f[6]? = some d1 →
    f[7]? = some d2 →
    (c = 0x45#8 → 64 ≤ d1.toNat → decodeFrame p f = .ok (.padDown d1 d2)) ∧
    (c = 0x45#8 → d1.toNat < 64 → decodeFrame p f = .ok (.padUp d1 d2)) ∧
    (c = 0x48#8 → d2 = 127#8 → decodeFrame p f = .ok (.buttonDown d1)) ∧
    (c = 0x48#8 → d2 ≠ 127#8 → decodeFrame p f = .ok (.buttonUp d1 d2)) ∧
    (c = 0x49#8 → decodeFrame p f = .ok (.knob d1 d2)) ∧
    (c = 0x43#8 → d2 = 1#8 → decodeFrame p f = .ok (.rotaryRight d1)) ∧
    (c = 0x43#8 → d2 ≠ 1#8 → decodeFrame p f = .ok (.rotaryLeft d1 d2)) ∧
    (c = 0x4B#8 → decodeFrame p f = .ok (.xy d1 d2)) ∧
    (c ∉ [0x43#8, 0x45#8, 0x48#8, 0x49#8, 0x4B#8] → decodeFrame p f = .ok (.unknown f))

/-- What R90 does with an event: appended to EVT when its enable bit is 1, no effect when it is 0. -/
def Sys2Proof.eventOutcome (bit : Nat) (e : EvRecord) (s : State) : State :=
  if s.ctrlEn.getLsbD bit = true then { s with output := s.output ++ [.evt (.ev e)] } else s

/-- R81, R82: a pad frame gives PadDown(d1 - 64, d2) or PadUp(d1), on EVT when bit 0 or bit 1 of CTRL.EN is 1, and nothing
else changes. -/
def Obligations.PadFrameResult : Prop :=
  ∀ (s : State) (d1 d2 : Byte),
    (64 ≤ d1.toNat → exec (.padDown d1 d2) s =
      .next (eventOutcome 0 { tag := .padDown, a := BitVec.ofNat 9 (d1.toNat - 64), b := d2 } s)) ∧
    (d1.toNat < 64 → exec (.padUp d1 d2) s =
      .next (eventOutcome 1 { tag := .padUp, a := BitVec.ofNat 9 d1.toNat, b := 0#8 } s))

/-- R83, R84: a button frame gives ButtonDown(d1 + 16) or ButtonUp(d1 + 16) in 9 bits with no wrap, under bits 2 and 3. -/
def Obligations.ButtonFrameResult : Prop :=
  ∀ (s : State) (d1 d2 : Byte), ∃ a : BitVec 9, a.toNat = d1.toNat + 16 ∧
    exec (.buttonDown d1) s = .next (eventOutcome 2 { tag := .buttonDown, a := a, b := 0#8 } s) ∧
    exec (.buttonUp d1 d2) s = .next (eventOutcome 3 { tag := .buttonUp, a := a, b := 0#8 } s)

/-- R85, R88: a knob frame gives Knob(d1, d2) and an x/y frame XY(d1, d2), under bits 4 and 7. -/
def Obligations.KnobAndXyFrameResult : Prop :=
  ∀ (s : State) (d1 d2 : Byte), ∃ a : BitVec 9, a.toNat = d1.toNat ∧
    exec (.knob d1 d2) s = .next (eventOutcome 4 { tag := .knob, a := a, b := d2 } s) ∧
    exec (.xy d1 d2) s = .next (eventOutcome 7 { tag := .xy, a := a, b := d2 } s)

/-- R86, R87: a rotary frame gives RotaryRight or RotaryLeft with no operand, under bits 6 and 5. -/
def Obligations.RotaryFrameResult : Prop :=
  ∀ (s : State) (d1 d2 : Byte),
    exec (.rotaryRight d1) s = .next (eventOutcome 6 { tag := .rotaryRight, a := 0#9, b := 0#8 } s) ∧
    exec (.rotaryLeft d1 d2) s = .next (eventOutcome 5 { tag := .rotaryLeft, a := 0#9, b := 0#8 } s)

/-- R89, R143, R18: an unknown class takes the invalid-message path with the whole frame, whatever the enable bits are: under
SIGNAL the record goes to ERR and DECODE_ERR is set, under HANDLER it goes to EVT and DECODE_ERR stays. -/
def Obligations.UnknownClassResult : Prop :=
  ∀ (s : State) (f : List Byte),
    (s.ctrlInvMode = .signal → exec (.invalidUnknownClass f) s =
      .next { s with decodeErr := true, output := s.output ++ [.err ⟨.unknownClass, f⟩] }) ∧
    (s.ctrlInvMode = .handler → exec (.invalidUnknownClass f) s =
      .next { s with output := s.output ++ [.evt (.inv ⟨.unknownClass, f⟩)] })

/-- R92: the outcome of a frame depends only on its bytes (and whether it was over-long), CTRL and the parameters: whatever else
two states hold, its F7 adds the same records to both and sets DECODE_ERR in both or in neither. -/
def Obligations.FrameOutcomeIgnoresEarlierFrames : Prop :=
  ∀ (s u : State) (bs : List Byte), s.params = u.params → s.ctrlEn = u.ctrlEn → s.ctrlInvMode = u.ctrlInvMode →
    s.frState = u.frState → s.frState ≠ .idle → HoldsBytes s bs → HoldsBytes u bs →
    ∃ (added : List Output) (failed : Bool),
      exec (.rxByte 0xF7#8) s = .next { closed s with
        output := s.output ++ added, decodeErr := s.decodeErr || failed } ∧
      exec (.rxByte 0xF7#8) u = .next { closed u with
        output := u.output ++ added, decodeErr := u.decodeErr || failed }

/-! ### Records -/

/-- R51, R52, R53: the packed word of every event and Invalid record, field by field, and the numbers of the kinds of
responses and of the reject codes. -/
def Obligations.RecordNumbers : Prop :=
  (∀ e : EvRecord, (packedWord (.ev e)).extractLsb' 0 4 = (match e.tag with
      | .padDown => 0#4 | .padUp => 1#4 | .buttonDown => 2#4 | .buttonUp => 3#4 | .knob => 4#4 | .rotaryLeft => 5#4
      | .rotaryRight => 6#4 | .xy => 7#4) ∧
    (packedWord (.ev e)).extractLsb' 4 9 = e.a ∧ (packedWord (.ev e)).extractLsb' 13 8 = e.b ∧
    (packedWord (.ev e)).extractLsb' 21 3 = 0#3) ∧
  (∀ r : InvRecord, (packedWord (.inv r)).extractLsb' 0 4 = 8#4 ∧ (packedWord (.inv r)).extractLsb' 4 9 = 0#9 ∧
    (packedWord (.inv r)).extractLsb' 13 8 = 0#8 ∧ (packedWord (.inv r)).extractLsb' 21 3 = (match r.reason with
      | .short => 1#3 | .badPreamble => 2#3 | .unknownClass => 3#3 | .overflow => 4#3)) ∧
  (∀ r : TxResponse, responseKind r = (match r with | .msg _ => 0#2 | .bytes3 _ _ _ => 1#2 | .reject _ => 2#2)) ∧
  ∀ c : RejectCode, rejectCode c = (match c with
      | .badTextLen => 1#3 | .badCodePoint => 2#3 | .badState => 3#3 | .badTarget => 4#3 | .durationRange => 5#3
      | .illegalOp => 6#3)

/-- R39, R91: the outputs of the steps before are never changed, and one step adds at most one output. -/
def Obligations.StepAddsAtMostOneOutput : Prop :=
  ∀ s t : State, step s = .next t → t.output = s.output ∨ ∃ o, t.output = s.output ++ [o]

/-! ### Encodings -/

/-- The decoder gives back every well-formed instruction that the encoder encodes, with every operand; a frame class under
every instance whose validation its frame passes. -/
def Obligations.DecodeOfEncodeIsTheInstruction : Prop :=
  ∀ (p : Params) (i : Instr), i.wellFormed = true →
    (∀ f, encode i = .frame f → validate p f = none) → decode p (encode i) = .ok i

/-- R45, R44, R46: the command a word carries is the one its OP selects, with each operand at its bits of the word. -/
def Obligations.CommandWordSelectsItsInstruction : Prop :=
  ∀ w : CmdWord,
    (w.extractLsb' 0 4 = 0#4 → decodeCmd w = .nativeModeOn) ∧
    (w.extractLsb' 0 4 = 1#4 → decodeCmd w = .nativeModeOff) ∧
    (w.extractLsb' 0 4 = 2#4 → decodeCmd w = .enableOutput) ∧
    (w.extractLsb' 0 4 = 3#4 → decodeCmd w = .init) ∧
    (w.extractLsb' 0 4 = 4#4 → decodeCmd w = .test) ∧
    (w.extractLsb' 0 4 = 5#4 → decodeCmd w = .encodeText
      ⟨w.extractLsb' 39 8, w.extractLsb' 47 21, w.extractLsb' 68 21, w.extractLsb' 89 21⟩) ∧
    (w.extractLsb' 0 4 = 6#4 → decodeCmd w = .setLed (if w.getLsbD 38 then .precomputed else .string)
      ⟨w.extractLsb' 39 8, w.extractLsb' 47 21, w.extractLsb' 68 21, w.extractLsb' 89 21⟩ (w.getLsbD 21)) ∧
    (w.extractLsb' 0 4 = 7#4 → decodeCmd w = .setLight (w.extractLsb' 4 8) (w.extractLsb' 12 8)) ∧
    (w.extractLsb' 0 4 = 8#4 → decodeCmd w = .setLightBool (w.extractLsb' 4 8) (w.getLsbD 20)) ∧
    (w.extractLsb' 0 4 = 9#4 → decodeCmd w = .flashLight (w.extractLsb' 4 8) (w.extractLsb' 22 16)) ∧
    (w.extractLsb' 0 4 = 10#4 → decodeCmd w = .setLightGroup (if w.getLsbD 38 then .precomputed else .string)
      ⟨w.extractLsb' 39 8, w.extractLsb' 47 21, w.extractLsb' 68 21, w.extractLsb' 89 21⟩ (w.extractLsb' 110 35)) ∧
    (w.extractLsb' 0 4 = 11#4 → decodeCmd w = .reservedOp11) ∧
    (w.extractLsb' 0 4 = 12#4 → decodeCmd w = .reservedOp12) ∧
    (w.extractLsb' 0 4 = 13#4 → decodeCmd w = .reservedOp13) ∧
    (w.extractLsb' 0 4 = 14#4 → decodeCmd w = .reservedOp14) ∧
    (w.extractLsb' 0 4 = 15#4 → decodeCmd w = .reservedOp15)

/-- R44: a command word is its operation code and its fields, with bits 159:145 cleared: no bit of it is lost. -/
def Obligations.CommandWordIsItsFields : Prop :=
  ∀ w : CmdWord, cmdWord (cmdOp w) (cmdFields w) = (w.setWidth 145).setWidth 160

/-- Words written out from the spec's encodings decode to the instruction they stand for (R44, R45, R54, R55, R43). -/
def Obligations.SampleWordsDecode : Prop :=
  decodeTableWord 160 0x0000000000000000000000000000000000020007 = some (.setLight 0x00#8 0x20#8) ∧
  decodeTableWord 160 0x0000000000000000000000000000000000100058 = some (.setLightBool 0x05#8 true) ∧
  decodeTableWord 160 0x0000000000000000000000000000000800000039 = some (.flashLight 0x03#8 0x2000#16) ∧
  decodeTableWord 160 0x0000000000000000400006900024018000000006 = some (.setLed .string ⟨3#8, 72#21, 105#21, 32#21⟩ false) ∧
  decodeTableWord 160 0x000000000000000000000000000000000000000B = some .reservedOp11 ∧
  decodeTableWord 40 0x10FFFFFFFF = some (.csrWrite 0#4 0xFFFFFFFF#32) ∧
  decodeTableWord 40 0xF00000000 = some (.csrRead 0xF#4) ∧
  decodeTableWord 8 0xF0 = some (.rxByte 0xF0#8) ∧ decodeTableWord 0 0 = some .reset ∧
  decodeTableWord 24 0x454064 = some (.padDown 0x40#8 0x64#8) ∧ decodeTableWord 24 0x450300 = some (.padUp 3#8 0#8) ∧
  decodeTableWord 24 0x48007F = some (.buttonDown 0#8) ∧ decodeTableWord 24 0x430000 = some (.rotaryLeft 0#8 0#8)

/-! ### Runs -/

/-- R62, R64, R65: from IDLE, the bytes of a frame whose inner bytes are neither F0 nor F7 (nor filtered) and whose length is at
most MAX_FRAME_LEN, presented one a step, end in exactly the delivery of that frame: valid, its class is run; not valid,
its reason is reported. Nothing else happens. -/
def Obligations.WholeFrameIsDelivered : Prop :=
  ∀ (s : State) (body : List Byte), s.params.legal = true → s.frState = .idle →
    (∀ b ∈ body, b ≠ 0xF0#8 ∧ b ≠ 0xF7#8 ∧ (s.params.rtFilter = true → b.toNat < 0xF8)) →
    body.length + 2 ≤ s.params.maxFrameLen →
    ∃ t : State, runAll (withInput (rxOf ([0xF0#8] ++ body ++ [0xF7#8])) s) = .next t ∧
      (∀ k, decodeFrame s.params ([0xF0#8] ++ body ++ [0xF7#8]) = .ok k →
        exec k.toInstr (closed (withInput [] s)) = .next t) ∧
      (∀ r, decodeFrame s.params ([0xF0#8] ++ body ++ [0xF7#8]) = .error r →
        t = reported ⟨r, [0xF0#8] ++ body ++ [0xF7#8]⟩ (closed (withInput [] s)))

/-- R5, R64, R67, R68: from IDLE, a frame longer than MAX_FRAME_LEN is reported at its F7 as Invalid(OVERFLOW) with its first
MAX_FRAME_LEN - 1 bytes and the F7; OVERFLOW stays set and the framer is back in IDLE. -/
def Obligations.OverlongFrameIsReported : Prop :=
  ∀ (s : State) (body : List Byte), s.params.legal = true → s.frState = .idle →
    (∀ b ∈ body, b ≠ 0xF0#8 ∧ b ≠ 0xF7#8 ∧ (s.params.rtFilter = true → b.toNat < 0xF8)) →
    s.params.maxFrameLen < body.length + 2 →
    runAll (withInput (rxOf ([0xF0#8] ++ body ++ [0xF7#8])) s) =
      .next (reported ⟨.overflow, ([0xF0#8] ++ body).take (s.params.maxFrameLen - 1) ++ [0xF7#8]⟩
        { closed (withInput [] s) with overflow := true })

/-- R93, for the messages whose length is fixed: the light, LED and light-group messages the block builds are no events: each, fed back to RX in IDLE where it fits
within MAX_FRAME_LEN, is reported as Invalid(UNKNOWN_CLASS) with the message as its raw bytes. -/
def Obligations.LightAndLedMessagesAreUnknownClass : Prop :=
  ∀ (s t : State) (i : Instr) (bytes : List Byte), s.params.legal = true → s.frState = .idle →
    ((∃ target state, i = .setLight target state) ∨ (∃ target on, i = .setLightBool target on) ∨
      (∃ target dur, i = .flashLight target dur) ∨ (∃ k x blink, i = .setLed k x blink) ∨
      (∃ k x lights, i = .setLightGroup k x lights)) →
    exec i s = .next t → t.output = s.output ++ [.txr (.msg bytes)] → bytes.length ≤ s.params.maxFrameLen →
    runAll (withInput (rxOf bytes) t) = .next (reported ⟨.unknownClass, bytes⟩ (closed (withInput [] t)))

/-- R164: a CSR_WRITE to CTRL while a frame is open, in RECV or in DISCARD, with any further bytes of the frame between it and
the F7, governs that frame. `kept` is what the framer holds of the frame at its F7 where it fits, `c` the state with the frame
closed and CTRL as written. A frame that fits and is valid dispatches its event under the written EN; one of unknown class, one
that fails validation and an over-long one are routed as Invalid under the written INV_MODE. -/
def Obligations.CtrlWriteGovernsTheOpenFrame : Prop :=
  ∀ (s c : State) (d : BitVec 32) (bs mid kept : List Byte), s.params.legal = true → s.frState ≠ .idle →
    HoldsBytes s bs → bs.length < s.params.maxFrameLen → (∀ b ∈ mid, b ≠ 0xF0#8 ∧ b ≠ 0xF7#8) →
    kept = bs ++ mid.filter (fun b => !(s.params.rtFilter && decide (0xF8 ≤ b.toNat))) →
    c = { closed (withInput [] s) with
      ctrlEn := d.setWidth 8, ctrlInvMode := if d.getLsbD 8 then .handler else .signal } →
    (s.frState = .recv → kept.length < s.params.maxFrameLen →
      (∀ k e, decodeFrame s.params (kept ++ [0xF7#8]) = .ok k → eventOf k = some e →
        runAll (withInput (.csr (csrWord true 0#4 d) :: (rxOf mid ++ [.rx 0xF7#8])) s) =
          .next (if d.getLsbD e.tag.index then { c with output := s.output ++ [.evt (.ev e)] } else c)) ∧
      (∀ f, decodeFrame s.params (kept ++ [0xF7#8]) = .ok (.unknown f) →
        runAll (withInput (.csr (csrWord true 0#4 d) :: (rxOf mid ++ [.rx 0xF7#8])) s) =
          .next (reported ⟨.unknownClass, kept ++ [0xF7#8]⟩ c)) ∧
      (∀ r, decodeFrame s.params (kept ++ [0xF7#8]) = .error r →
        runAll (withInput (.csr (csrWord true 0#4 d) :: (rxOf mid ++ [.rx 0xF7#8])) s) =
          .next (reported ⟨r, kept ++ [0xF7#8]⟩ c))) ∧
    (s.frState = .recv → s.params.maxFrameLen ≤ kept.length →
      runAll (withInput (.csr (csrWord true 0#4 d) :: (rxOf mid ++ [.rx 0xF7#8])) s) =
        .next (reported ⟨.overflow, kept.take (s.params.maxFrameLen - 1) ++ [0xF7#8]⟩ { c with overflow := true })) ∧
    (s.frState = .discard →
      runAll (withInput (.csr (csrWord true 0#4 d) :: (rxOf mid ++ [.rx 0xF7#8])) s) =
        .next (reported ⟨.overflow, bs ++ [0xF7#8]⟩ c))

/-- R153: TX and RX do not see each other, in any interleaving: taking every TX command out of the host's transactions
changes neither the framer, CTRL, STATUS nor EVT, ERR and the CSR results; and taking out everything but the TX commands
changes no record of TXR. -/
def Obligations.TxAndRxDoNotInterfere : Prop :=
  ∀ s t : State, runAll s = .next t →
    (∃ u, runAll (withInput (s.input.filter (fun x => !isTx x)) s) = .next u ∧
      u.params = t.params ∧ u.frBuf = t.frBuf ∧ u.frLen = t.frLen ∧ u.frState = t.frState ∧ u.ctrlEn = t.ctrlEn ∧
      u.ctrlInvMode = t.ctrlInvMode ∧ u.decodeErr = t.decodeErr ∧ u.overflow = t.overflow ∧ u.abort = t.abort ∧
      evtOf u.output = evtOf t.output ∧ errOf u.output = errOf t.output ∧ csrOf u.output = csrOf t.output) ∧
    (∃ u, runAll (withInput (s.input.filter isTx) s) = .next u ∧ txrOf u.output = txrOf t.output)

/-! ### Host duties -/

/-- R168: the host's LIGHTS field has bit `i` exactly for the indices mapped to true, and a mapping with an index outside 0 to
34 has no field. -/
def Obligations.LightsFieldHoldsTheMapping : Prop :=
  ∀ is : List Nat, ((∃ l, lightsOf is = some l) ↔ ∀ i ∈ is, i < 35) ∧
    ∀ l, lightsOf is = some l → ∀ i, i < 35 → l.getLsbD i = decide (i ∈ is)

/-- R59, R169, R110: the line `text "s"` issues one command; a text of three characters up to 0x7F answers their code points in
order, and a text of any other length is rejected with BAD_TEXT_LEN. -/
def Obligations.TextLineAnswersItsCharacters : Prop :=
  ∀ (s : State) (cs : List Char), ∃ x : Transaction, expand (.text cs) = some [x] ∧
    (cs.length ≠ 3 →
      exec (decodeTransaction x) s = .next { s with output := s.output ++ [.txr (.reject .badTextLen)] }) ∧
    (∀ a b c : Char, cs = [a, b, c] → a.toNat ≤ 0x7F → b.toNat ≤ 0x7F → c.toNat ≤ 0x7F →
      exec (decodeTransaction x) s = .next { s with output := s.output ++
        [.txr (.bytes3 (BitVec.ofNat 8 a.toNat) (BitVec.ofNat 8 b.toNat) (BitVec.ofNat 8 c.toNat))] })

/-- What R166 asks a host to transmit, as the model's function `transmitted` gives it: exactly the bytes of the MSG responses,
whole and in order. That a host keeps this duty is PRESUMED (log 17), not stated. -/
def Obligations.TransmittedIsTheMessageResponses : Prop :=
  ∀ out : List Output, transmitted out =
    (txrOf out).flatMap (fun r => match r with | .msg bytes => [bytes] | .bytes3 _ _ _ => [] | .reject _ => [])

end
end

