-- ==== Sys2Proof/Laws/Decode.lean ====
section
/-! SUPPORT. The decoder and the encoder, field by field. -/

namespace Sys2Proof.Laws

@[simp] theorem cmdOp_cmdWord (op : BitVec 4) (f : CmdFields) : cmdOp (cmdWord op f) = op := by
  rw [cmdOp, cmdWord, BitVec.extractLsb'_setWidth_of_le (by decide), BitVec.extractLsb'_append_eq_of_add_le (by decide)]
  exact BitVec.extractLsb'_eq_self

@[simp] theorem cmdFields_cmdWord (op : BitVec 4) (f : CmdFields) : cmdFields (cmdWord op f) = f := by
  cases f
  simp only [cmdFields, CmdFields.mk.injEq]
  refine ⟨?_, ?_, ?_, ?_, ?_, ?_, ?_, ?_, ?_, ?_, ?_⟩ <;> rw [cmdWord]
  case refine_3 | refine_4 | refine_6 =>
    rw [BitVec.getLsbD_setWidth]
    repeat rw [BitVec.getLsbD_append, if_neg (by decide)]
    rw [BitVec.getLsbD_append, if_pos (by decide)]
    simp
  all_goals
    rw [BitVec.extractLsb'_setWidth_of_le (by decide)]
    repeat rw [BitVec.extractLsb'_append_eq_of_le (by decide)]
    try rw [BitVec.extractLsb'_append_eq_of_add_le (by decide)]
    exact BitVec.extractLsb'_eq_self

/-- The write bit of a CSR word (R54). -/
theorem csrWord_write (w : Bool) (a : BitVec 4) (d : BitVec 32) : (csrWord w a d).getLsbD 36 = w := by
  rw [csrWord, BitVec.getLsbD_setWidth, BitVec.getLsbD_append, if_neg (by decide), BitVec.getLsbD_append,
    if_neg (by decide)]
  simp

@[simp] theorem csrWord_getElem (w : Bool) (a : BitVec 4) (d : BitVec 32) : (csrWord w a d)[36] = w :=
  csrWord_write w a d

/-- The address of a CSR word (R54). -/
@[simp] theorem csrWord_addr (w : Bool) (a : BitVec 4) (d : BitVec 32) : (csrWord w a d).extractLsb' 32 4 = a := by
  rw [csrWord, BitVec.extractLsb'_setWidth_of_le (by decide), BitVec.extractLsb'_append_eq_of_le (by decide),
    BitVec.extractLsb'_append_eq_of_add_le (by decide)]
  exact BitVec.extractLsb'_eq_self

/-- The data of a CSR word (R54). -/
@[simp] theorem csrWord_data (w : Bool) (a : BitVec 4) (d : BitVec 32) : (csrWord w a d).extractLsb' 0 32 = d := by
  rw [csrWord, BitVec.extractLsb'_setWidth_of_le (by decide), BitVec.extractLsb'_append_eq_of_add_le (by decide)]
  exact BitVec.extractLsb'_eq_self

@[simp] theorem textKind_ofBit_bit (k : TextKind) : TextKind.ofBit k.bit = k := by cases k <;> rfl

@[simp] theorem nineByteFrame_class (c d1 d2 : Byte) : (nineByteFrame c d1 d2)[5]? = some c := rfl
@[simp] theorem nineByteFrame_d1 (c d1 d2 : Byte) : (nineByteFrame c d1 d2)[6]? = some d1 := rfl
@[simp] theorem nineByteFrame_d2 (c d1 d2 : Byte) : (nineByteFrame c d1 d2)[7]? = some d2 := rfl

/-- A nine-byte frame with the preamble passes every check of a legal instance (R70, R72). -/
theorem validate_nineByteFrame (p : Params) (h : p.minDecodeLen ≤ 9) (c d1 d2 : Byte) :
    validate p (nineByteFrame c d1 d2) = none := by
  have hp : preambleOk (nineByteFrame c d1 d2) = true := rfl
  have hl : lengthOk p (nineByteFrame c d1 d2) = true := by simpa [lengthOk, nineByteFrame, Config.preamble] using h
  simp [validate, hp, hl]

/-- What a validated frame decodes to (R80). -/
theorem decodeFrame_of_valid {p : Params} {f : List Byte} (h : validate p f = none) :
    decodeFrame p f = .ok (classify (f.getD 5 0#8) (f.getD 6 0#8) (f.getD 7 0#8) f) := by
  simp [decodeFrame, h]

/-- What a rejected frame decodes to (R72). -/
theorem decodeFrame_of_invalid {p : Params} {f : List Byte} {r : InvReason} (h : validate p f = some r) :
    decodeFrame p f = .error r := by
  simp [decodeFrame, h]

end Sys2Proof.Laws
end

