-- ==== Sys2Proof/Laws/Memory.lean ====
section
/-! SUPPORT. The laws of the memory: read after write, and the canonical form every operation keeps. -/

namespace Sys2Proof.Laws

open Sys2Proof.Machine

@[simp] theorem read_nil (a : Nat) : Memory.read [] a = none := rfl

@[simp] theorem read_write_same (m : Memory) (a : Nat) (b : Byte) : Memory.read (Memory.write m a b) a = some b := by
  induction m with
  | nil => simp [Memory.write, Memory.read]
  | cons c m ih =>
    obtain ⟨k, v⟩ := c
    simp only [Memory.write]
    split
    · simp [Memory.read]
    · split
      · simp [Memory.read]
      · simp [Memory.read, *]

theorem read_write_other (m : Memory) {a a' : Nat} (b : Byte) (h : a' ≠ a) :
    Memory.read (Memory.write m a b) a' = Memory.read m a' := by
  induction m with
  | nil => simp [Memory.write, Memory.read, h, Memory.unlisted]
  | cons c m ih =>
    obtain ⟨k, v⟩ := c
    simp only [Memory.write]
    split
    · simp [Memory.read, h]
    · split
      · subst_vars; simp [Memory.read, h]
      · simp [Memory.read, ih]

theorem risesFrom_write (m : Memory) (n a : Nat) (b : Byte) (hm : Memory.risesFrom n m = true) (ha : n ≤ a) :
    Memory.risesFrom n (Memory.write m a b) = true := by
  induction m generalizing n with
  | nil => simp [Memory.write, Memory.risesFrom, ha]
  | cons c m ih =>
    obtain ⟨k, v⟩ := c
    simp only [Memory.risesFrom, Bool.and_eq_true, decide_eq_true_eq] at hm
    simp only [Memory.write]
    split
    · simp only [Memory.risesFrom, Bool.and_eq_true, decide_eq_true_eq]; exact ⟨ha, by omega, hm.2⟩
    · split
      · subst_vars; simp only [Memory.risesFrom, Bool.and_eq_true, decide_eq_true_eq]; exact ⟨ha, hm.2⟩
      · simp only [Memory.risesFrom, Bool.and_eq_true, decide_eq_true_eq]
        exact ⟨hm.1, ih (k + 1) hm.2 (by omega)⟩

theorem wf_nil : Memory.wf [] = true := rfl

theorem wf_iff (m : Memory) : Memory.wf m = true ↔ Memory.risesFrom 0 m = true := by
  simp [Memory.wf, Memory.unlisted]

/-- Every store keeps the canonical form. -/
theorem wf_write (m : Memory) (a : Nat) (b : Byte) (h : Memory.wf m = true) : Memory.wf (Memory.write m a b) = true := by
  rw [wf_iff] at *
  exact risesFrom_write m 0 a b h (Nat.zero_le a)

/-- Below its first index a rising list lists nothing. -/
theorem read_below (m : Memory) {n a : Nat} (h : Memory.risesFrom n m = true) (ha : a < n) : Memory.read m a = none := by
  induction m generalizing n with
  | nil => rfl
  | cons c m ih =>
    obtain ⟨k, v⟩ := c
    simp only [Memory.risesFrom, Bool.and_eq_true, decide_eq_true_eq] at h
    simp only [Memory.read]
    rw [if_neg (by omega)]
    exact ih h.2 (by omega)

/-- A byte string laid out from index `k` reads back as it stands. -/
theorem read_laidOut (bs : List Byte) (k i : Nat) :
    Memory.read ((bs.zipIdx k).map (fun x => (x.2, x.1))) i = if k ≤ i then bs[i - k]? else none := by
  induction bs generalizing k with
  | nil => simp
  | cons b bs ih =>
    simp only [List.zipIdx_cons, List.map_cons, Memory.read, ih]
    by_cases h : i = k
    · simp [h]
    · rw [if_neg h]
      by_cases hk : k + 1 ≤ i
      · rw [if_pos hk, if_pos (by omega), show i - k = (i - (k + 1)) + 1 by omega, List.getElem?_cons_succ]
      · rw [if_neg hk, if_neg (by omega)]

/-- Equal canonical memories are equal data: two that read the same everywhere are the same list. -/
theorem eq_of_read_eq {n : Nat} {m m' : Memory} (hm : Memory.risesFrom n m = true) (hm' : Memory.risesFrom n m' = true)
    (h : ∀ a, Memory.read m a = Memory.read m' a) : m = m' := by
  induction m generalizing n m' with
  | nil =>
    cases m' with
    | nil => rfl
    | cons c m' => have := h c.1; simp [Memory.read, Memory.unlisted] at this
  | cons c m ih =>
    obtain ⟨k, v⟩ := c
    cases m' with
    | nil => have := h k; simp [Memory.read, Memory.unlisted] at this
    | cons c' m' =>
      obtain ⟨k', v'⟩ := c'
      simp only [Memory.risesFrom, Bool.and_eq_true, decide_eq_true_eq] at hm hm'
      have hk : k = k' := by
        rcases Nat.lt_trichotomy k k' with hlt | heq | hgt
        · have := h k
          rw [Memory.read, Memory.read, if_pos rfl, if_neg (by omega), read_below m' hm'.2 (by omega)] at this
          cases this
        · exact heq
        · have := h k'
          rw [Memory.read, Memory.read, if_pos rfl, if_neg (by omega), read_below m hm.2 (by omega)] at this
          cases this
      subst hk
      have hv : v = v' := by have := h k; simpa [Memory.read] using this
      subst hv
      congr 1
      refine ih hm.2 hm'.2 (fun a => ?_)
      by_cases ha : a = k
      · subst ha; rw [read_below m hm.2 (by omega), read_below m' hm'.2 (by omega)]
      · have := h a; simpa [Memory.read, ha] using this

end Sys2Proof.Laws
end

