-- ==== Sys2Proof/Laws/State.lean ====
section
/-! SUPPORT. One lemma per field per update, so that no proof unfolds a record update. -/

namespace Sys2Proof.Laws

open Sys2Proof.Machine

@[simp] theorem setFrLen_params (n : BitVec 16) (s : State) : (setFrLen n s).params = s.params := rfl
@[simp] theorem setFrLen_frBuf (n : BitVec 16) (s : State) : (setFrLen n s).frBuf = s.frBuf := rfl
@[simp] theorem setFrLen_frLen (n : BitVec 16) (s : State) : (setFrLen n s).frLen = n := rfl
@[simp] theorem setFrLen_frState (n : BitVec 16) (s : State) : (setFrLen n s).frState = s.frState := rfl
@[simp] theorem setFrLen_ctrlEn (n : BitVec 16) (s : State) : (setFrLen n s).ctrlEn = s.ctrlEn := rfl
@[simp] theorem setFrLen_ctrlInvMode (n : BitVec 16) (s : State) : (setFrLen n s).ctrlInvMode = s.ctrlInvMode := rfl
@[simp] theorem setFrLen_decodeErr (n : BitVec 16) (s : State) : (setFrLen n s).decodeErr = s.decodeErr := rfl
@[simp] theorem setFrLen_overflow (n : BitVec 16) (s : State) : (setFrLen n s).overflow = s.overflow := rfl
@[simp] theorem setFrLen_abort (n : BitVec 16) (s : State) : (setFrLen n s).abort = s.abort := rfl
@[simp] theorem setFrLen_input (n : BitVec 16) (s : State) : (setFrLen n s).input = s.input := rfl
@[simp] theorem setFrLen_output (n : BitVec 16) (s : State) : (setFrLen n s).output = s.output := rfl

@[simp] theorem setFrState_params (x : FrState) (s : State) : (setFrState x s).params = s.params := rfl
@[simp] theorem setFrState_frBuf (x : FrState) (s : State) : (setFrState x s).frBuf = s.frBuf := rfl
@[simp] theorem setFrState_frLen (x : FrState) (s : State) : (setFrState x s).frLen = s.frLen := rfl
@[simp] theorem setFrState_frState (x : FrState) (s : State) : (setFrState x s).frState = x := rfl
@[simp] theorem setFrState_ctrlEn (x : FrState) (s : State) : (setFrState x s).ctrlEn = s.ctrlEn := rfl
@[simp] theorem setFrState_ctrlInvMode (x : FrState) (s : State) : (setFrState x s).ctrlInvMode = s.ctrlInvMode := rfl
@[simp] theorem setFrState_decodeErr (x : FrState) (s : State) : (setFrState x s).decodeErr = s.decodeErr := rfl
@[simp] theorem setFrState_overflow (x : FrState) (s : State) : (setFrState x s).overflow = s.overflow := rfl
@[simp] theorem setFrState_abort (x : FrState) (s : State) : (setFrState x s).abort = s.abort := rfl
@[simp] theorem setFrState_input (x : FrState) (s : State) : (setFrState x s).input = s.input := rfl
@[simp] theorem setFrState_output (x : FrState) (s : State) : (setFrState x s).output = s.output := rfl

@[simp] theorem forgetBuffer_params (s : State) : (forgetBuffer s).params = s.params := rfl
@[simp] theorem forgetBuffer_frBuf (s : State) : (forgetBuffer s).frBuf = [] := rfl
@[simp] theorem forgetBuffer_frLen (s : State) : (forgetBuffer s).frLen = s.frLen := rfl
@[simp] theorem forgetBuffer_frState (s : State) : (forgetBuffer s).frState = s.frState := rfl
@[simp] theorem forgetBuffer_ctrlEn (s : State) : (forgetBuffer s).ctrlEn = s.ctrlEn := rfl
@[simp] theorem forgetBuffer_ctrlInvMode (s : State) : (forgetBuffer s).ctrlInvMode = s.ctrlInvMode := rfl
@[simp] theorem forgetBuffer_decodeErr (s : State) : (forgetBuffer s).decodeErr = s.decodeErr := rfl
@[simp] theorem forgetBuffer_overflow (s : State) : (forgetBuffer s).overflow = s.overflow := rfl
@[simp] theorem forgetBuffer_abort (s : State) : (forgetBuffer s).abort = s.abort := rfl
@[simp] theorem forgetBuffer_input (s : State) : (forgetBuffer s).input = s.input := rfl
@[simp] theorem forgetBuffer_output (s : State) : (forgetBuffer s).output = s.output := rfl

@[simp] theorem closeFrame_params (s : State) : (closeFrame s).params = s.params := rfl
@[simp] theorem closeFrame_frBuf (s : State) : (closeFrame s).frBuf = [] := rfl
@[simp] theorem closeFrame_frLen (s : State) : (closeFrame s).frLen = 0#16 := rfl
@[simp] theorem closeFrame_frState (s : State) : (closeFrame s).frState = .idle := rfl
@[simp] theorem closeFrame_ctrlEn (s : State) : (closeFrame s).ctrlEn = s.ctrlEn := rfl
@[simp] theorem closeFrame_ctrlInvMode (s : State) : (closeFrame s).ctrlInvMode = s.ctrlInvMode := rfl
@[simp] theorem closeFrame_decodeErr (s : State) : (closeFrame s).decodeErr = s.decodeErr := rfl
@[simp] theorem closeFrame_overflow (s : State) : (closeFrame s).overflow = s.overflow := rfl
@[simp] theorem closeFrame_abort (s : State) : (closeFrame s).abort = s.abort := rfl
@[simp] theorem closeFrame_input (s : State) : (closeFrame s).input = s.input := rfl
@[simp] theorem closeFrame_output (s : State) : (closeFrame s).output = s.output := rfl

@[simp] theorem emit_params (o : Output) (s : State) : (emit o s).params = s.params := rfl
@[simp] theorem emit_frBuf (o : Output) (s : State) : (emit o s).frBuf = s.frBuf := rfl
@[simp] theorem emit_frLen (o : Output) (s : State) : (emit o s).frLen = s.frLen := rfl
@[simp] theorem emit_frState (o : Output) (s : State) : (emit o s).frState = s.frState := rfl
@[simp] theorem emit_ctrlEn (o : Output) (s : State) : (emit o s).ctrlEn = s.ctrlEn := rfl
@[simp] theorem emit_ctrlInvMode (o : Output) (s : State) : (emit o s).ctrlInvMode = s.ctrlInvMode := rfl
@[simp] theorem emit_decodeErr (o : Output) (s : State) : (emit o s).decodeErr = s.decodeErr := rfl
@[simp] theorem emit_overflow (o : Output) (s : State) : (emit o s).overflow = s.overflow := rfl
@[simp] theorem emit_abort (o : Output) (s : State) : (emit o s).abort = s.abort := rfl
@[simp] theorem emit_input (o : Output) (s : State) : (emit o s).input = s.input := rfl
@[simp] theorem emit_output (o : Output) (s : State) : (emit o s).output = s.output ++ [o] := rfl

@[simp] theorem setOverflow_params (s : State) : (setOverflow s).params = s.params := rfl
@[simp] theorem setOverflow_frBuf (s : State) : (setOverflow s).frBuf = s.frBuf := rfl
@[simp] theorem setOverflow_frLen (s : State) : (setOverflow s).frLen = s.frLen := rfl
@[simp] theorem setOverflow_frState (s : State) : (setOverflow s).frState = s.frState := rfl
@[simp] theorem setOverflow_ctrlEn (s : State) : (setOverflow s).ctrlEn = s.ctrlEn := rfl
@[simp] theorem setOverflow_ctrlInvMode (s : State) : (setOverflow s).ctrlInvMode = s.ctrlInvMode := rfl
@[simp] theorem setOverflow_decodeErr (s : State) : (setOverflow s).decodeErr = s.decodeErr := rfl
@[simp] theorem setOverflow_overflow (s : State) : (setOverflow s).overflow = true := rfl
@[simp] theorem setOverflow_abort (s : State) : (setOverflow s).abort = s.abort := rfl
@[simp] theorem setOverflow_input (s : State) : (setOverflow s).input = s.input := rfl
@[simp] theorem setOverflow_output (s : State) : (setOverflow s).output = s.output := rfl

@[simp] theorem setAbort_params (s : State) : (setAbort s).params = s.params := rfl
@[simp] theorem setAbort_frBuf (s : State) : (setAbort s).frBuf = s.frBuf := rfl
@[simp] theorem setAbort_frLen (s : State) : (setAbort s).frLen = s.frLen := rfl
@[simp] theorem setAbort_frState (s : State) : (setAbort s).frState = s.frState := rfl
@[simp] theorem setAbort_ctrlEn (s : State) : (setAbort s).ctrlEn = s.ctrlEn := rfl
@[simp] theorem setAbort_ctrlInvMode (s : State) : (setAbort s).ctrlInvMode = s.ctrlInvMode := rfl
@[simp] theorem setAbort_decodeErr (s : State) : (setAbort s).decodeErr = s.decodeErr := rfl
@[simp] theorem setAbort_overflow (s : State) : (setAbort s).overflow = s.overflow := rfl
@[simp] theorem setAbort_abort (s : State) : (setAbort s).abort = true := rfl
@[simp] theorem setAbort_input (s : State) : (setAbort s).input = s.input := rfl
@[simp] theorem setAbort_output (s : State) : (setAbort s).output = s.output := rfl

@[simp] theorem clearOverflow_params (s : State) : (clearOverflow s).params = s.params := rfl
@[simp] theorem clearOverflow_frBuf (s : State) : (clearOverflow s).frBuf = s.frBuf := rfl
@[simp] theorem clearOverflow_frLen (s : State) : (clearOverflow s).frLen = s.frLen := rfl
@[simp] theorem clearOverflow_frState (s : State) : (clearOverflow s).frState = s.frState := rfl
@[simp] theorem clearOverflow_ctrlEn (s : State) : (clearOverflow s).ctrlEn = s.ctrlEn := rfl
@[simp] theorem clearOverflow_ctrlInvMode (s : State) : (clearOverflow s).ctrlInvMode = s.ctrlInvMode := rfl
@[simp] theorem clearOverflow_decodeErr (s : State) : (clearOverflow s).decodeErr = s.decodeErr := rfl
@[simp] theorem clearOverflow_overflow (s : State) : (clearOverflow s).overflow = false := rfl
@[simp] theorem clearOverflow_abort (s : State) : (clearOverflow s).abort = s.abort := rfl
@[simp] theorem clearOverflow_input (s : State) : (clearOverflow s).input = s.input := rfl
@[simp] theorem clearOverflow_output (s : State) : (clearOverflow s).output = s.output := rfl

@[simp] theorem clearAbort_params (s : State) : (clearAbort s).params = s.params := rfl
@[simp] theorem clearAbort_frBuf (s : State) : (clearAbort s).frBuf = s.frBuf := rfl
@[simp] theorem clearAbort_frLen (s : State) : (clearAbort s).frLen = s.frLen := rfl
@[simp] theorem clearAbort_frState (s : State) : (clearAbort s).frState = s.frState := rfl
@[simp] theorem clearAbort_ctrlEn (s : State) : (clearAbort s).ctrlEn = s.ctrlEn := rfl
@[simp] theorem clearAbort_ctrlInvMode (s : State) : (clearAbort s).ctrlInvMode = s.ctrlInvMode := rfl
@[simp] theorem clearAbort_decodeErr (s : State) : (clearAbort s).decodeErr = s.decodeErr := rfl
@[simp] theorem clearAbort_overflow (s : State) : (clearAbort s).overflow = s.overflow := rfl
@[simp] theorem clearAbort_abort (s : State) : (clearAbort s).abort = false := rfl
@[simp] theorem clearAbort_input (s : State) : (clearAbort s).input = s.input := rfl
@[simp] theorem clearAbort_output (s : State) : (clearAbort s).output = s.output := rfl

@[simp] theorem acknowledgeDecodeError_params (s : State) : (acknowledgeDecodeError s).params = s.params := rfl
@[simp] theorem acknowledgeDecodeError_frBuf (s : State) : (acknowledgeDecodeError s).frBuf = s.frBuf := rfl
@[simp] theorem acknowledgeDecodeError_frLen (s : State) : (acknowledgeDecodeError s).frLen = s.frLen := rfl
@[simp] theorem acknowledgeDecodeError_frState (s : State) : (acknowledgeDecodeError s).frState = s.frState := rfl
@[simp] theorem acknowledgeDecodeError_ctrlEn (s : State) : (acknowledgeDecodeError s).ctrlEn = s.ctrlEn := rfl
@[simp] theorem acknowledgeDecodeError_ctrlInvMode (s : State) : (acknowledgeDecodeError s).ctrlInvMode = s.ctrlInvMode := rfl
@[simp] theorem acknowledgeDecodeError_decodeErr (s : State) : (acknowledgeDecodeError s).decodeErr = false := rfl
@[simp] theorem acknowledgeDecodeError_overflow (s : State) : (acknowledgeDecodeError s).overflow = s.overflow := rfl
@[simp] theorem acknowledgeDecodeError_abort (s : State) : (acknowledgeDecodeError s).abort = s.abort := rfl
@[simp] theorem acknowledgeDecodeError_input (s : State) : (acknowledgeDecodeError s).input = s.input := rfl
@[simp] theorem acknowledgeDecodeError_output (s : State) : (acknowledgeDecodeError s).output = s.output := rfl

@[simp] theorem writeCtrl_params (d : BitVec 32) (s : State) : (writeCtrl d s).params = s.params := rfl
@[simp] theorem writeCtrl_frBuf (d : BitVec 32) (s : State) : (writeCtrl d s).frBuf = s.frBuf := rfl
@[simp] theorem writeCtrl_frLen (d : BitVec 32) (s : State) : (writeCtrl d s).frLen = s.frLen := rfl
@[simp] theorem writeCtrl_frState (d : BitVec 32) (s : State) : (writeCtrl d s).frState = s.frState := rfl
@[simp] theorem writeCtrl_ctrlEn (d : BitVec 32) (s : State) : (writeCtrl d s).ctrlEn = d.extractLsb' 0 8 := rfl
@[simp] theorem writeCtrl_ctrlInvMode (d : BitVec 32) (s : State) : (writeCtrl d s).ctrlInvMode = invModeOf (d.getLsbD 8) := rfl
@[simp] theorem writeCtrl_decodeErr (d : BitVec 32) (s : State) : (writeCtrl d s).decodeErr = s.decodeErr := rfl
@[simp] theorem writeCtrl_overflow (d : BitVec 32) (s : State) : (writeCtrl d s).overflow = s.overflow := rfl
@[simp] theorem writeCtrl_abort (d : BitVec 32) (s : State) : (writeCtrl d s).abort = s.abort := rfl
@[simp] theorem writeCtrl_input (d : BitVec 32) (s : State) : (writeCtrl d s).input = s.input := rfl
@[simp] theorem writeCtrl_output (d : BitVec 32) (s : State) : (writeCtrl d s).output = s.output := rfl

@[simp] theorem issue_params (ts : List Transaction) (s : State) : (issue ts s).params = s.params := rfl
@[simp] theorem issue_frBuf (ts : List Transaction) (s : State) : (issue ts s).frBuf = s.frBuf := rfl
@[simp] theorem issue_frLen (ts : List Transaction) (s : State) : (issue ts s).frLen = s.frLen := rfl
@[simp] theorem issue_frState (ts : List Transaction) (s : State) : (issue ts s).frState = s.frState := rfl
@[simp] theorem issue_ctrlEn (ts : List Transaction) (s : State) : (issue ts s).ctrlEn = s.ctrlEn := rfl
@[simp] theorem issue_ctrlInvMode (ts : List Transaction) (s : State) : (issue ts s).ctrlInvMode = s.ctrlInvMode := rfl
@[simp] theorem issue_decodeErr (ts : List Transaction) (s : State) : (issue ts s).decodeErr = s.decodeErr := rfl
@[simp] theorem issue_overflow (ts : List Transaction) (s : State) : (issue ts s).overflow = s.overflow := rfl
@[simp] theorem issue_abort (ts : List Transaction) (s : State) : (issue ts s).abort = s.abort := rfl
@[simp] theorem issue_input (ts : List Transaction) (s : State) : (issue ts s).input = ts ++ s.input := rfl
@[simp] theorem issue_output (ts : List Transaction) (s : State) : (issue ts s).output = s.output := rfl

@[simp] theorem emitEvt_eq (r : EvtRecord) (s : State) : emitEvt r s = emit (.evt r) s := rfl
@[simp] theorem emitErr_eq (r : InvRecord) (s : State) : emitErr r s = emit (.err r) s := rfl
@[simp] theorem respond_eq (r : TxResponse) (s : State) : respond r s = emit (.txr r) s := rfl
@[simp] theorem returnData_eq (d : BitVec 32) (s : State) : returnData d s = emit (.csr d) s := rfl

end Sys2Proof.Laws
end

