-- ==== Sys2Proof/Laws/Ops.lean ====
section
/-! SUPPORT. What each shared operation can do, said once. -/

namespace Sys2Proof.Laws

open Sys2Proof.Machine Sys2Proof.Safety

/-! ### The frame buffer -/

theorem frBufRead_ok {s : State} {i : Nat} {b : Byte} (hi : i < s.params.maxFrameLen)
    (h : Memory.read s.frBuf i = some b) : frBufRead s i = .ok b := by
  simp [frBufRead, hi, h]

theorem frBufReadFrom_ok {s : State} (bs : List Byte) (i : Nat) (hi : i + bs.length ≤ s.params.maxFrameLen)
    (h : ∀ j, j < bs.length → Memory.read s.frBuf (i + j) = bs[j]?) : frBufReadFrom s i bs.length = .ok bs := by
  induction bs generalizing i with
  | nil => rfl
  | cons b bs ih =>
    have h0 : frBufRead s i = .ok b := frBufRead_ok (by simp at hi; omega) (by simpa using h 0 (by simp))
    have h1 : frBufReadFrom s (i + 1) bs.length = .ok bs := by
      refine ih (i + 1) (by simp at hi; omega) (fun j hj => ?_)
      have := h (j + 1) (by simpa using hj)
      rw [show i + (j + 1) = i + 1 + j by omega] at this
      simpa using this
    simp [frBufReadFrom, h0, h1]

/-- The buffered bytes are read back as they stand. -/
theorem bufferedBytes_of_holds {s : State} {bs : List Byte} (h : HoldsBytes s bs) : bufferedBytes s = .ok bs := by
  obtain ⟨hl, hm, hr⟩ := h
  rw [bufferedBytes, ← hl]
  exact frBufReadFrom_ok bs 0 (by omega) (fun j _ => by simpa using hr j)

/-- The staged frame is the bytes before its terminator, held by the framer. -/
theorem stageFrame_holds {f : List Byte} {s : State} (hp : f.dropLast.length ≤ s.params.maxFrameLen)
    (h : f.dropLast.length < 2 ^ 16) : HoldsBytes (stageFrame f s) f.dropLast := by
  refine ⟨?_, hp, fun i => ?_⟩
  · simp only [stageFrame, BitVec.toNat_ofNat, Nat.mod_eq_of_lt h]
  · simpa [stageFrame] using read_laidOut f.dropLast 0 i

/-- A buffer filled below `FR_LEN` holds some byte string. -/
theorem exists_holds {s : State} (hm : s.frLen.toNat ≤ s.params.maxFrameLen)
    (h : ∀ i, (Memory.read s.frBuf i).isSome = true ↔ i < s.frLen.toNat) : ∃ bs, HoldsBytes s bs := by
  refine ⟨(List.range s.frLen.toNat).map (fun i => (Memory.read s.frBuf i).getD 0#8), by simp, by simpa using hm, ?_⟩
  intro i
  by_cases hi : i < s.frLen.toNat
  · obtain ⟨b, hb⟩ := Option.isSome_iff_exists.mp ((h i).mpr hi)
    simp [hi, hb]
  · have : Memory.read s.frBuf i = none := by
      cases hr : Memory.read s.frBuf i with
      | none => rfl
      | some b => exact absurd ((h i).mp (by simp [hr])) hi
    simp [hi, this]

/-- Opening a frame (R62, R66). -/
theorem openFrame_eq {s : State} (h : 0 < s.params.maxFrameLen) :
    openFrame s = .ok { s with frBuf := [(0, Config.sox)], frLen := 1#16, frState := .recv } := by
  simp [openFrame, frBufWrite, h, forgetBuffer, setFrState, setFrLen, Memory.write]

/-- Storing a byte (R64). -/
theorem appendByte_eq {s : State} {b : Byte} (h : s.frLen.toNat < s.params.maxFrameLen) :
    appendByte b s = .ok { s with frBuf := Memory.write s.frBuf s.frLen.toNat b, frLen := s.frLen + 1#16 } := by
  simp [appendByte, frBufWrite, h, setFrLen]

/-- Opening a frame answers the opened frame or stops where there is no entry. -/
theorem openFrame_cases {s t : State} (h : openFrame s = .ok t) :
    t = { s with frBuf := [(0, Config.sox)], frLen := 1#16, frState := .recv } := by
  by_cases hp : 0 < s.params.maxFrameLen
  · rw [openFrame_eq hp] at h; exact (Except.ok.inj h).symm
  · simp [openFrame, frBufWrite, hp, forgetBuffer] at h

/-- Storing a byte answers the stored byte or stops where there is no entry. -/
theorem appendByte_cases {s t : State} {b : Byte} (h : appendByte b s = .ok t) :
    t = { s with frBuf := Memory.write s.frBuf s.frLen.toNat b, frLen := s.frLen + 1#16 } := by
  by_cases hp : s.frLen.toNat < s.params.maxFrameLen
  · rw [appendByte_eq hp] at h; exact (Except.ok.inj h).symm
  · simp [appendByte, frBufWrite, hp] at h

theorem outcomeOf_next {r : Except Fault State} {t : State} : outcomeOf r = .next t ↔ r = .ok t := by
  cases r <;> simp [outcomeOf]

/-! ### Errors and events -/

/-- Taking a decode error (R143). -/
theorem raiseDecodeError_cases (r : InvReason) (raw : List Byte) (s : State) :
    (s.ctrlInvMode = .signal ∧
      raiseDecodeError r raw s = { s with decodeErr := true, output := s.output ++ [.err ⟨r, raw⟩] }) ∨
    (s.ctrlInvMode = .handler ∧
      raiseDecodeError r raw s = { s with output := s.output ++ [.evt (.inv ⟨r, raw⟩)] }) := by
  cases h : s.ctrlInvMode <;> simp [raiseDecodeError, h, emitErr, emitEvt, emit]

/-- Dispatching an event (R90). -/
theorem dispatch_cases (e : EvRecord) (s : State) :
    (s.ctrlEn.getLsbD e.tag.index = true ∧ dispatch e s = { s with output := s.output ++ [.evt (.ev e)] }) ∨
    (s.ctrlEn.getLsbD e.tag.index = false ∧ dispatch e s = s) := by
  cases h : s.ctrlEn.getLsbD e.tag.index <;> simp [dispatch, h, emitEvt, emit]

/-- Running a frame class dispatches its event or raises UNKNOWN_CLASS. -/
theorem execFrameClass_cases (k : FrameClass) (s : State) :
    (∃ e, eventOf k = some e ∧ execFrameClass k s = .next (dispatch e s)) ∨
    (∃ f, k = .unknown f ∧ execFrameClass k s = .next (raiseDecodeError .unknownClass f s)) := by
  cases k with
  | unknown f => exact .inr ⟨f, rfl, rfl⟩
  | _ => exact .inl ⟨_, rfl, rfl⟩

/-- The instruction of a frame class has the class's meaning. -/
theorem exec_toInstr (k : FrameClass) (s : State) : exec k.toInstr s = execFrameClass k s := by cases k <;> rfl

/-- The delivery of a frame always goes on: it dispatches one event or takes the invalid-message path once (R80, R91). -/
theorem deliver_cases (f : List Byte) (s : State) :
    (∃ k e, decodeFrame s.params f = .ok k ∧ eventOf k = some e ∧ deliver f s = .next (dispatch e s)) ∨
    (∃ g, decodeFrame s.params f = .ok (.unknown g) ∧ deliver f s = .next (raiseDecodeError .unknownClass g s)) ∨
    (∃ r, decodeFrame s.params f = .error r ∧ deliver f s = .next (raiseDecodeError r f s)) := by
  cases h : decodeFrame s.params f with
  | error r => exact .inr (.inr ⟨r, rfl, by simp [deliver, h]⟩)
  | ok k =>
    rcases execFrameClass_cases k s with ⟨e, he, hx⟩ | ⟨g, rfl, hx⟩
    · exact .inl ⟨k, e, rfl, he, by simp [deliver, h, hx]⟩
    · exact .inr (.inl ⟨g, rfl, by simp [deliver, h, hx]⟩)

/-! ### The framer -/

/-- Everything RX_BYTE can do when it goes on (R60 to R68). -/
theorem execRxByte_cases {b : Byte} {s t : State} (h : execRxByte b s = .next t) :
    (t = s ∧ (s.frState = .idle → b ≠ Config.sox) ∧ (s.frState ≠ .idle → b ≠ Config.sox ∧ b ≠ Config.eox)) ∨
    (s.frState = .idle ∧ b = Config.sox ∧
      t = { s with frBuf := [(0, Config.sox)], frLen := 1#16, frState := .recv }) ∨
    (s.frState ≠ .idle ∧ b = Config.sox ∧
      t = { s with frBuf := [(0, Config.sox)], frLen := 1#16, frState := .recv, abort := true }) ∨
    (s.frState = .recv ∧ b ≠ Config.sox ∧ b ≠ Config.eox ∧ rxFiltered b s = false ∧
      s.frLen.toNat < s.params.maxFrameLen - 1 ∧
      t = { s with frBuf := Memory.write s.frBuf s.frLen.toNat b, frLen := s.frLen + 1#16 }) ∨
    (s.frState = .recv ∧ b ≠ Config.sox ∧ b ≠ Config.eox ∧ s.params.maxFrameLen - 1 ≤ s.frLen.toNat ∧
      t = { s with frState := .discard, overflow := true }) ∨
    (s.frState = .recv ∧ b = Config.eox ∧ ∃ bytes, bufferedBytes s = .ok bytes ∧
      deliver (bytes ++ [Config.eox]) (closed s) = .next t) ∨
    (s.frState = .discard ∧ b = Config.eox ∧ ∃ bytes, bufferedBytes s = .ok bytes ∧
      t = raiseDecodeError .overflow (bytes ++ [Config.eox]) (closed s)) := by
  have hc : closeFrame s = closed s := rfl
  have hne : Config.sox ≠ Config.eox := by decide
  unfold execRxByte at h
  split at h
  · next hf =>
    have hb : 0xF8 ≤ b.toNat ∧ s.frState ≠ .idle := by simp [rxFiltered] at hf; exact ⟨hf.2, hf.1.2⟩
    refine .inl ⟨by cases h; rfl, fun hi => absurd hi hb.2, fun _ => ⟨?_, ?_⟩⟩ <;>
      · rintro rfl; exact absurd hb.1 (by decide)
  · next hf =>
    split at h
    · next hs =>
      split at h
      · next hb => exact .inr (.inl ⟨hs, hb, openFrame_cases (outcomeOf_next.mp h)⟩)
      · next hb => exact .inl ⟨by cases h; rfl, fun _ => hb, fun hn => absurd hs hn⟩
    · next hs =>
      split at h
      · next hb =>
        unfold rxEnd at h
        cases hr : bufferedBytes s with
        | error e => simp [hr] at h
        | ok bytes => rw [hr] at h; exact .inr (.inr (.inr (.inr (.inr (.inl ⟨hs, hb, bytes, rfl, h⟩)))))
      · next hb =>
        split at h
        · next hb' =>
          have := openFrame_cases (outcomeOf_next.mp h)
          exact .inr (.inr (.inl ⟨by simp [hs], hb', this⟩))
        · next hb' =>
          unfold rxInside at h
          split at h
          · next hl =>
            exact .inr (.inr (.inr (.inl ⟨hs, hb', hb, by simpa using hf, hl, appendByte_cases (outcomeOf_next.mp h)⟩)))
          · next hl =>
            refine .inr (.inr (.inr (.inr (.inl ⟨hs, hb', hb, by omega, ?_⟩))))
            cases h; rfl
    · next hs =>
      split at h
      · next hb =>
        unfold rxEndOverlong at h
        cases hr : bufferedBytes s with
        | error e => simp [hr] at h
        | ok bytes =>
          rw [hr] at h
          exact .inr (.inr (.inr (.inr (.inr (.inr ⟨hs, hb, bytes, rfl, by cases h; rfl⟩)))))
      · next hb =>
        split at h
        · next hb' => exact .inr (.inr (.inl ⟨by simp [hs], hb', openFrame_cases (outcomeOf_next.mp h)⟩))
        · next hb' => exact .inl ⟨by cases h; rfl, fun hi => by simp [hs] at hi, fun _ => ⟨hb', hb⟩⟩

/-! ### Registers -/

/-- The write-1-to-clear of STATUS (R132). -/
theorem writeStatus_eq (d : BitVec 32) (s : State) :
    writeStatus d s = { s with
      decodeErr := s.decodeErr && !d.getLsbD 0
      overflow := s.overflow && !d.getLsbD 1
      abort := s.abort && !d.getLsbD 2 } := by
  cases h0 : d.getLsbD 0 <;> cases h1 : d.getLsbD 1 <;> cases h2 : d.getLsbD 2 <;>
    simp only [writeStatus, h0, h1, h2, acknowledgeDecodeError, clearOverflow, clearAbort, if_true, Bool.false_eq_true,
      if_false, Bool.not_true, Bool.not_false, Bool.and_true, Bool.and_false]

/-! ### The step -/

/-- Everything a step can do when it goes on: the oldest transaction's instruction runs. -/
theorem step_next {s t : State} (h : step s = .next t) :
    s.params.legal = true ∧ ∃ x rest, s.input = x :: rest ∧ exec (decodeTransaction x) { s with input := rest } = .next t := by
  unfold step at h
  split at h
  · next hl =>
    cases hi : s.input with
    | nil => simp [takeTransaction, hi] at h
    | cons x rest => exact ⟨hl, x, rest, rfl, by simpa [takeTransaction, hi] using h⟩
  · cases h

end Sys2Proof.Laws
end

