-- ==== Sys2Proof/Laws/PerInstr.lean ====
section
/-! SUPPORT. Statements made per instruction: every encoding stands in its row of spec/opcode_table.json. -/

namespace Sys2Proof.Laws

/-- The width, mask and match of a row of spec/opcode_table.json. -/
structure TableRow where
  width : Nat
  mask : Nat
  pattern : Nat
deriving DecidableEq, Repr

/-- The row of an instruction, as the table gives it. -/
def tableRow : Instr → TableRow
  | .nativeModeOn => ⟨160, 0xF, 0x0⟩
  | .nativeModeOff => ⟨160, 0xF, 0x1⟩
  | .enableOutput => ⟨160, 0xF, 0x2⟩
  | .init => ⟨160, 0xF, 0x3⟩
  | .test => ⟨160, 0xF, 0x4⟩
  | .encodeText _ => ⟨160, 0xF, 0x5⟩
  | .setLed _ _ _ => ⟨160, 0xF, 0x6⟩
  | .setLight _ _ => ⟨160, 0xF, 0x7⟩
  | .setLightBool _ _ => ⟨160, 0xF, 0x8⟩
  | .flashLight _ _ => ⟨160, 0xF, 0x9⟩
  | .setLightGroup _ _ _ => ⟨160, 0xF, 0xA⟩
  | .reservedOp11 => ⟨160, 0xF, 0xB⟩
  | .reservedOp12 => ⟨160, 0xF, 0xC⟩
  | .reservedOp13 => ⟨160, 0xF, 0xD⟩
  | .reservedOp14 => ⟨160, 0xF, 0xE⟩
  | .reservedOp15 => ⟨160, 0xF, 0xF⟩
  | .csrRead _ => ⟨37, 0x1000000000, 0x0⟩
  | .csrWrite _ _ => ⟨37, 0x1000000000, 0x1000000000⟩
  | .rxByte _ => ⟨8, 0x00, 0x00⟩
  | .reset => ⟨0, 0x0, 0x0⟩
  | .padDown _ _ => ⟨24, 0xFF0000, 0x450000⟩
  | .padUp _ _ => ⟨24, 0xFFC000, 0x450000⟩
  | .buttonDown _ => ⟨24, 0xFF00FF, 0x48007F⟩
  | .buttonUp _ _ => ⟨24, 0xFF0000, 0x480000⟩
  | .knob _ _ => ⟨24, 0xFF0000, 0x490000⟩
  | .rotaryRight _ => ⟨24, 0xFF00FF, 0x430001⟩
  | .rotaryLeft _ _ => ⟨24, 0xFF0000, 0x430000⟩
  | .xy _ _ => ⟨24, 0xFF0000, 0x4B0000⟩
  | .invalidUnknownClass _ => ⟨24, 0x000000, 0x000000⟩

/-- The word of an encoding with the table's numbering, and its width. A frame's word is its bytes 5, 6 and 7. -/
def tableWord : Code → Nat × Nat
  | .port (.rx b) => (8, b.toNat)
  | .port (.cmd w) => (160, w.toNat)
  | .port (.csr w) => (37, w.toNat)
  | .port .reset => (0, 0)
  | .frame f => (24, ((f.getD 5 0#8) ++ (f.getD 6 0#8) ++ (f.getD 7 0#8) : BitVec 24).toNat)

/-- A word stands in a row: it is as wide, and the bits under the mask are the pattern. -/
def standsIn (w : Nat × Nat) (r : TableRow) : Prop := w.1 = r.width ∧ w.2 &&& r.mask = r.pattern

/-- The encoding of a well-formed instruction stands in its row. -/
def EncodesToItsRow.Statement (i : Instr) : Prop := i.wellFormed = true → standsIn (tableWord (encode i)) (tableRow i)

theorem cmd_standsIn (op : BitVec 4) (f : CmdFields) (n : Nat) (h : op.toNat = n) :
    standsIn (tableWord (encodeCmd op f)) ⟨160, 0xF, n⟩ := by
  refine ⟨rfl, ?_⟩
  show (cmdWord op f).toNat &&& 0xF = n
  have h1 : (cmdOp (cmdWord op f)).toNat = n := by rw [cmdOp_cmdWord, h]
  rw [cmdOp, BitVec.extractLsb'_toNat, Nat.shiftRight_zero] at h1
  rw [← h1]
  exact Nat.and_two_pow_sub_one_eq_mod _ 4

theorem csr_standsIn (w : Bool) (a : BitVec 4) (d : BitVec 32) :
    standsIn (tableWord (.port (.csr (csrWord w a d)))) ⟨37, 0x1000000000, if w then 0x1000000000 else 0⟩ := by
  refine ⟨rfl, ?_⟩
  show (csrWord w a d).toNat &&& 0x1000000000 = _
  have h := csrWord_write w a d
  have hb : (csrWord w a d).toNat &&& 2 ^ 36 = if (csrWord w a d).getLsbD 36 then 2 ^ 36 else 0 := by
    rw [Nat.and_two_pow, BitVec.getLsbD]; cases (csrWord w a d).toNat.testBit 36 <;> simp
  rw [h] at hb
  exact hb

theorem frame_standsIn {c d1 d2 mc m1 m2 pc p1 p2 : Byte} (hc : c &&& mc = pc) (h1 : d1 &&& m1 = p1)
    (h2 : d2 &&& m2 = p2) :
    standsIn (tableWord (.frame (nineByteFrame c d1 d2)))
      ⟨24, (mc ++ m1 ++ m2 : BitVec 24).toNat, (pc ++ p1 ++ p2 : BitVec 24).toNat⟩ := by
  refine ⟨rfl, ?_⟩
  show (c ++ d1 ++ d2 : BitVec 24).toNat &&& _ = _
  have h : (c ++ d1 ++ d2) &&& (mc ++ m1 ++ m2) = pc ++ p1 ++ p2 := by
    rw [BitVec.and_append, BitVec.and_append, hc, h1, h2]
  exact (BitVec.toNat_and ..).symm.trans (congrArg BitVec.toNat h)

/-- A byte below 64 has its two top bits 0. -/
theorem top_bits_zero : ∀ d : Byte, d.toNat < 64 → d &&& 0xC0#8 = 0#8 := by decide +kernel

theorem EncodesToItsRow.nativeModeOn : EncodesToItsRow.Statement (.nativeModeOn) :=
  fun _ => cmd_standsIn _ _ 0 rfl

theorem EncodesToItsRow.nativeModeOff : EncodesToItsRow.Statement (.nativeModeOff) :=
  fun _ => cmd_standsIn _ _ 1 rfl

theorem EncodesToItsRow.enableOutput : EncodesToItsRow.Statement (.enableOutput) :=
  fun _ => cmd_standsIn _ _ 2 rfl

theorem EncodesToItsRow.init : EncodesToItsRow.Statement (.init) :=
  fun _ => cmd_standsIn _ _ 3 rfl

theorem EncodesToItsRow.test : EncodesToItsRow.Statement (.test) :=
  fun _ => cmd_standsIn _ _ 4 rfl

theorem EncodesToItsRow.encodeText (a : TextField) : EncodesToItsRow.Statement (.encodeText a) :=
  fun _ => cmd_standsIn _ _ 5 rfl

theorem EncodesToItsRow.setLed (a : TextKind) (b : TextField) (c : Bool) : EncodesToItsRow.Statement (.setLed a b c) :=
  fun _ => cmd_standsIn _ _ 6 rfl

theorem EncodesToItsRow.setLight (a b : Byte) : EncodesToItsRow.Statement (.setLight a b) :=
  fun _ => cmd_standsIn _ _ 7 rfl

theorem EncodesToItsRow.setLightBool (a : Byte) (b : Bool) : EncodesToItsRow.Statement (.setLightBool a b) :=
  fun _ => cmd_standsIn _ _ 8 rfl

theorem EncodesToItsRow.flashLight (a : Byte) (b : BitVec 16) : EncodesToItsRow.Statement (.flashLight a b) :=
  fun _ => cmd_standsIn _ _ 9 rfl

theorem EncodesToItsRow.setLightGroup (a : TextKind) (b : TextField) (c : BitVec 35) : EncodesToItsRow.Statement (.setLightGroup a b c) :=
  fun _ => cmd_standsIn _ _ 10 rfl

theorem EncodesToItsRow.reservedOp11 : EncodesToItsRow.Statement (.reservedOp11) :=
  fun _ => cmd_standsIn _ _ 11 rfl

theorem EncodesToItsRow.reservedOp12 : EncodesToItsRow.Statement (.reservedOp12) :=
  fun _ => cmd_standsIn _ _ 12 rfl

theorem EncodesToItsRow.reservedOp13 : EncodesToItsRow.Statement (.reservedOp13) :=
  fun _ => cmd_standsIn _ _ 13 rfl

theorem EncodesToItsRow.reservedOp14 : EncodesToItsRow.Statement (.reservedOp14) :=
  fun _ => cmd_standsIn _ _ 14 rfl

theorem EncodesToItsRow.reservedOp15 : EncodesToItsRow.Statement (.reservedOp15) :=
  fun _ => cmd_standsIn _ _ 15 rfl

theorem EncodesToItsRow.csrRead (a : BitVec 4) : EncodesToItsRow.Statement (.csrRead a) :=
  fun _ => csr_standsIn false _ _

theorem EncodesToItsRow.csrWrite (a : BitVec 4) (b : BitVec 32) : EncodesToItsRow.Statement (.csrWrite a b) :=
  fun _ => csr_standsIn true _ _

theorem EncodesToItsRow.rxByte (a : Byte) : EncodesToItsRow.Statement (.rxByte a) :=
  fun _ => ⟨rfl, Nat.and_zero _⟩

theorem EncodesToItsRow.reset : EncodesToItsRow.Statement (.reset) :=
  fun _ => ⟨rfl, rfl⟩

theorem EncodesToItsRow.padDown (a b : Byte) : EncodesToItsRow.Statement (.padDown a b) :=
  fun _ => frame_standsIn (mc := 0xFF#8) (m1 := 0x00#8) (m2 := 0x00#8) rfl (BitVec.and_zero) (BitVec.and_zero)

theorem EncodesToItsRow.padUp (a b : Byte) : EncodesToItsRow.Statement (.padUp a b) := by
  intro h
  exact frame_standsIn (mc := 0xFF#8) (m1 := 0xC0#8) (m2 := 0x00#8) rfl (top_bits_zero _ (by simpa [Instr.wellFormed] using h)) (BitVec.and_zero)

theorem EncodesToItsRow.buttonDown (a : Byte) : EncodesToItsRow.Statement (.buttonDown a) :=
  fun _ => frame_standsIn (mc := 0xFF#8) (m1 := 0x00#8) (m2 := 0xFF#8) rfl (BitVec.and_zero) (rfl)

theorem EncodesToItsRow.buttonUp (a b : Byte) : EncodesToItsRow.Statement (.buttonUp a b) :=
  fun _ => frame_standsIn (mc := 0xFF#8) (m1 := 0x00#8) (m2 := 0x00#8) rfl (BitVec.and_zero) (BitVec.and_zero)

theorem EncodesToItsRow.knob (a b : Byte) : EncodesToItsRow.Statement (.knob a b) :=
  fun _ => frame_standsIn (mc := 0xFF#8) (m1 := 0x00#8) (m2 := 0x00#8) rfl (BitVec.and_zero) (BitVec.and_zero)

theorem EncodesToItsRow.rotaryRight (a : Byte) : EncodesToItsRow.Statement (.rotaryRight a) :=
  fun _ => frame_standsIn (mc := 0xFF#8) (m1 := 0x00#8) (m2 := 0xFF#8) rfl (BitVec.and_zero) (rfl)

theorem EncodesToItsRow.rotaryLeft (a b : Byte) : EncodesToItsRow.Statement (.rotaryLeft a b) :=
  fun _ => frame_standsIn (mc := 0xFF#8) (m1 := 0x00#8) (m2 := 0x00#8) rfl (BitVec.and_zero) (BitVec.and_zero)

theorem EncodesToItsRow.xy (a b : Byte) : EncodesToItsRow.Statement (.xy a b) :=
  fun _ => frame_standsIn (mc := 0xFF#8) (m1 := 0x00#8) (m2 := 0x00#8) rfl (BitVec.and_zero) (BitVec.and_zero)

theorem EncodesToItsRow.invalidUnknownClass (a : List Byte) : EncodesToItsRow.Statement (.invalidUnknownClass a) :=
  fun _ => ⟨rfl, Nat.and_zero _⟩

end Sys2Proof.Laws
end

