-- ==== Sys2Proof/Laws/Run.lean ====
section
/-! SUPPORT. How a run unfolds: one pending transaction at a time. -/

namespace Sys2Proof.Laws

open Sys2Proof.Machine Sys2Proof.Safety

/-- A run of the interface over `k + 1` steps takes one step and goes on where that step does. -/
theorem run_succ_of_next {k : Nat} {s u : State} (h : step s = .next u) :
    Host.Core.run Sys2Proof.core (k + 1) s = Host.Core.run Sys2Proof.core k u := by
  have h' : Sys2Proof.core.step s = .next u := h
  simp only [Host.Core.run, h']

/-- A step on a legal instance with a transaction pending runs that transaction's instruction. -/
theorem step_cons {s : State} {x : Transaction} {rest : List Transaction} (hl : s.params.legal = true)
    (hx : s.input = x :: rest) : step s = exec (decodeTransaction x) { s with input := rest } := by
  simp only [step, hl, if_true, takeTransaction, hx]

/-- A run with nothing pending is over. -/
theorem runAll_nil {s : State} (h : s.input = []) : runAll s = .next s := by
  simp only [runAll, h, List.length_nil, Host.Core.run]
  rfl

/-- A run whose first instruction goes on is the run from where it goes to. -/
theorem runAll_cons {s u : State} {x : Transaction} {rest : List Transaction} (hl : s.params.legal = true)
    (hx : s.input = x :: rest) (h : exec (decodeTransaction x) { s with input := rest } = .next u)
    (hu : u.input = rest) : runAll s = runAll u := by
  have hs : step s = .next u := by rw [step_cons hl hx, h]
  simp only [runAll, hx, List.length_cons, run_succ_of_next hs, hu]
  rfl

/-- A run over a last transaction is that transaction's instruction. -/
theorem runAll_last {s : State} {x : Transaction} (hl : s.params.legal = true) (hx : s.input = [x]) :
    runAll s = exec (decodeTransaction x) { s with input := [] } := by
  have hs := step_cons hl hx
  simp only [runAll, hx, List.length_singleton, Host.Core.run]
  cases he : exec (decodeTransaction x) { s with input := [] } with
  | next u =>
    have h' : Sys2Proof.core.step s = .next u := hs.trans he
    simp only [h']
    rfl
  | fault r =>
    have h' : Sys2Proof.core.step s = .fault r := hs.trans he
    simp only [h']
    rfl
  | refused r =>
    have h' : Sys2Proof.core.step s = .refused r := hs.trans he
    simp only [h']
    rfl

end Sys2Proof.Laws
end

