-- ==== Sys2Proof/Tests/Slice0.lean ====
section
/-! SUPPORT. Tests with results from spec/95_test_vectors.md (the vector's name stands at each) or worked out by hand from
the rule named, the refusals of WellFormed, and a witness for the hypotheses of every obligation that has any. -/

namespace Sys2Proof.Tests

open Sys2Proof.Machine Sys2Proof.Safety Sys2Proof.Laws

/-! ### Helpers -/

/-- The start state of the vectors: reset, then `csrw CTRL, 0xFF`. -/
def on : State := { State.reset with ctrlEn := 0xFF#8 }

/-- The framer in state `st` holding `bs`, on the instance `p`. -/
def holding (p : Params) (st : FrState) (bs : List Byte) : State :=
  { stageFrame (bs ++ [0xF7#8]) on with params := p, frState := st }

/-- The outputs after an outcome that goes on. -/
def outputOf : Host.Outcome State Fault Refusal → Option (List Output)
  | .next t => some t.output
  | .fault _ => none
  | .refused _ => none

/-- What STATUS reads as after an outcome that goes on. -/
def statusOf : Host.Outcome State Fault Refusal → Option (BitVec 32)
  | .next t => some (statusWord t)
  | .fault _ => none
  | .refused _ => none

/-- What CTRL reads as after an outcome that goes on. -/
def ctrlOf : Host.Outcome State Fault Refusal → Option (BitVec 32)
  | .next t => some (ctrlWord t)
  | .fault _ => none
  | .refused _ => none

/-- The single-light message, written out from R49. -/
def light (target state : Byte) : Output :=
  .txr (.msg [0xF0#8, 0x42#8, 0x40#8, 0x6E#8, 0x08#8, 0x01#8, target, state, 0xF7#8])

/-- The text "Hi ". -/
def hi : TextField := ⟨3#8, 72#21, 105#21, 32#21⟩

/-- An instance whose frames are at most 9 bytes long. -/
def nine : Params := { maxFrameLen := 9 }

/-- The eight bytes of `F0 42 40 6E 08 45 40 64`. -/
def padBytes : List Byte := [0xF0#8, 0x42#8, 0x40#8, 0x6E#8, 0x08#8, 0x45#8, 0x40#8, 0x64#8]

/-! ### WellFormed refuses -/

theorem test_wf_padDown : Instr.wellFormed (.padDown 63#8 0#8) = false := by decide
theorem test_wf_padUp : Instr.wellFormed (.padUp 64#8 0#8) = false := by decide
theorem test_wf_buttonUp : Instr.wellFormed (.buttonUp 0#8 127#8) = false := by decide
theorem test_wf_rotaryLeft : Instr.wellFormed (.rotaryLeft 0#8 1#8) = false := by decide
theorem test_wf_unknown_start :
    Instr.wellFormed (.invalidUnknownClass [0xF1#8, 0x42#8, 0x40#8, 0x6E#8, 0x08#8, 0x99#8, 0#8, 0#8, 0xF7#8]) = false := by
  decide
theorem test_wf_unknown_end :
    Instr.wellFormed (.invalidUnknownClass [0xF0#8, 0x42#8, 0x40#8, 0x6E#8, 0x08#8, 0x99#8, 0#8, 0#8, 0#8]) = false := by
  decide
theorem test_wf_unknown_short :
    Instr.wellFormed (.invalidUnknownClass [0xF0#8, 0x42#8, 0x40#8, 0x6E#8, 0x08#8, 0x99#8, 0xF7#8]) = false := by
  decide
theorem test_wf_unknown_long :
    Instr.wellFormed (.invalidUnknownClass (0xF0#8 :: List.replicate 65534 0#8 ++ [0xF7#8])) = false := by
  have h : (0xF0#8 :: List.replicate 65534 0#8 ++ [0xF7#8]).length = 65536 := by
    rw [List.length_append, List.length_cons, List.length_replicate]; rfl
  generalize 0xF0#8 :: List.replicate 65534 0#8 ++ [0xF7#8] = f at h ⊢
  simp [Instr.wellFormed, isFrame, h]
theorem test_wf_unknown_known :
    Instr.wellFormed (.invalidUnknownClass [0xF0#8, 0x42#8, 0x40#8, 0x6E#8, 0x08#8, 0x45#8, 0#8, 0#8, 0xF7#8]) = false := by
  decide

/-! ### Decoding: words written out from the spec's encodings -/

/-- R105 -/
theorem test_decode_nativeModeOn : decodeTableWord 160 0x0 = some .nativeModeOn := by decide
/-- R106 -/
theorem test_decode_nativeModeOff : decodeTableWord 160 0x1 = some .nativeModeOff := by decide
/-- P5 -/
theorem test_decode_enableOutput : decodeTableWord 160 0x2 = some .enableOutput := by decide
/-- P5 -/
theorem test_decode_init : decodeTableWord 160 0x3 = some .init := by decide
/-- R109 -/
theorem test_decode_test : decodeTableWord 160 0x4 = some .test := by decide
/-- TX-T8 -/
theorem test_decode_encodeText :
    decodeTableWord 160 0x00000000000003EC000006900024018000000005 =
      some (.encodeText ⟨3#8, 72#21, 105#21, 0x1F600#21⟩) := by decide
/-- TX-L2 -/
theorem test_decode_setLed :
    decodeTableWord 160 0x0000000000000000400006900024018000200006 = some (.setLed .string hi true) := by decide
/-- TX-L3 -/
theorem test_decode_setLed_bytes :
    decodeTableWord 160 0x0000000000000000060000200000804000000006 =
      some (.setLed .precomputed ⟨0#8, 1#21, 2#21, 3#21⟩ false) := by decide
/-- TX-S5 -/
theorem test_decode_setLight :
    decodeTableWord 160 0x000000000000000000000000000000000005E7F7 = some (.setLight 0x7F#8 0x5E#8) := by decide
/-- TX-B4: `STATE` is not read. -/
theorem test_decode_setLightBool :
    decodeTableWord 160 0x0000000000000000000000000000000000199058 = some (.setLightBool 5#8 true) := by decide
/-- TX-F7 -/
theorem test_decode_flashLight :
    decodeTableWord 160 0x0000000000000000000000000000003FFFC00039 = some (.flashLight 3#8 0xFFFF#16) := by decide
/-- TX-G5: lights 0, 7 and 34. -/
theorem test_decode_setLightGroup :
    decodeTableWord 160 0x000100000020400040000690002401800000000A =
      some (.setLightGroup .string hi 0x400000081#35) := by decide
/-- TX-R11 -/
theorem test_decode_reservedOp11 : decodeTableWord 160 0xB = some .reservedOp11 := by decide
/-- TX-R12 -/
theorem test_decode_reservedOp12 : decodeTableWord 160 0xC = some .reservedOp12 := by decide
/-- TX-R13 -/
theorem test_decode_reservedOp13 : decodeTableWord 160 0xD = some .reservedOp13 := by decide
/-- TX-R14 -/
theorem test_decode_reservedOp14 : decodeTableWord 160 0xE = some .reservedOp14 := by decide
/-- TX-R15b -/
theorem test_decode_reservedOp15 :
    decodeTableWord 160 0x000000000000000000000000000000800000080F = some .reservedOp15 := by decide
/-- CS9 -/
theorem test_decode_csrRead : decodeTableWord 40 0xF00000000 = some (.csrRead 0xF#4) := by decide
/-- CS8 -/
theorem test_decode_csrWrite : decodeTableWord 37 0x1712345678 = some (.csrWrite 7#4 0x12345678#32) := by decide
/-- R54: the word ends at bit 36. -/
theorem test_decode_csr_beyond : decodeTableWord 40 0x2000000000 = none := by decide
/-- R55 -/
theorem test_decode_rxByte : decodeTableWord 8 0xF0 = some (.rxByte 0xF0#8) := by decide
/-- R55 -/
theorem test_decode_reset : decodeTableWord 0 0 = some .reset := by decide
/-- CL10 -/
theorem test_decode_padDown : decodeTableWord 24 0x45FFFF = some (.padDown 0xFF#8 0xFF#8) := by decide
/-- CL9 -/
theorem test_decode_padUp : decodeTableWord 24 0x453F05 = some (.padUp 0x3F#8 5#8) := by decide
/-- CL12 -/
theorem test_decode_buttonDown : decodeTableWord 24 0x48207F = some (.buttonDown 0x20#8) := by decide
/-- CL4b -/
theorem test_decode_buttonUp : decodeTableWord 24 0x48007E = some (.buttonUp 0#8 0x7E#8) := by decide
/-- CL13 -/
theorem test_decode_knob : decodeTableWord 24 0x490140 = some (.knob 1#8 0x40#8) := by decide
/-- CL5 -/
theorem test_decode_rotaryRight : decodeTableWord 24 0x430001 = some (.rotaryRight 0#8) := by decide
/-- CL6c -/
theorem test_decode_rotaryLeft : decodeTableWord 24 0x43057F = some (.rotaryLeft 5#8 0x7F#8) := by decide
/-- CL14 -/
theorem test_decode_xy : decodeTableWord 24 0x4B1070 = some (.xy 0x10#8 0x70#8) := by decide
/-- CL7 -/
theorem test_decode_unknown : decodeTableWord 24 0x990000 =
    some (.invalidUnknownClass [0xF0#8, 0x42#8, 0x40#8, 0x6E#8, 0x08#8, 0x99#8, 0#8, 0#8, 0xF7#8]) := by decide

/-! ### Commands -/

/-- R105 -/
theorem test_nativeModeOn : outputOf (exec .nativeModeOn State.reset) = some [.txr (.msg Config.seqNativeOn)] := rfl
/-- R106 -/
theorem test_nativeModeOff : outputOf (exec .nativeModeOff State.reset) = some [.txr (.msg Config.seqNativeOff)] := rfl
/-- R107 -/
theorem test_enableOutput : outputOf (exec .enableOutput State.reset) = some [.txr (.msg Config.seqEnableOutput)] := rfl
/-- R108 -/
theorem test_init : outputOf (exec .init State.reset) = some [.txr (.msg Config.seqInit)] := rfl
/-- R109 -/
theorem test_test : outputOf (exec .test State.reset) = some [.txr (.msg Config.seqTest)] := rfl
/-- TX-T12 -/
theorem test_encodeText : outputOf (exec (.encodeText ⟨3#8, 0x7F#21, 0#21, 0x7F#21⟩) on) =
    some [.txr (.bytes3 0x7F#8 0#8 0x7F#8)] := by decide
/-- TX-T9: the length is checked before the code points. -/
theorem test_encodeText_order : outputOf (exec (.encodeText ⟨4#8, 0x80#21, 0#21, 0#21⟩) on) =
    some [.txr (.reject .badTextLen)] := by decide
/-- TX-L2 -/
theorem test_setLed : outputOf (exec (.setLed .string hi true) on) =
    some [.txr (.msg [0xF0#8, 0x42#8, 0x40#8, 0x6E#8, 0x08#8, 0x22#8, 0x04#8, 0x60#8, 0x48#8, 0x69#8, 0x20#8, 0xF7#8])] := by
  decide
/-- TX-L5 -/
theorem test_setLed_codePoint : outputOf (exec (.setLed .precomputed ⟨0#8, 0x80#21, 0#21, 0#21⟩ false) on) =
    some [.txr (.reject .badCodePoint)] := by decide
/-- TX-S5 -/
theorem test_setLight : outputOf (exec (.setLight 0x7F#8 0x5E#8) on) = some [light 0x7F#8 0x5E#8] := by decide
/-- TX-S9: the target is checked before the state. -/
theorem test_setLight_order : outputOf (exec (.setLight 0x80#8 0x5F#8) on) = some [.txr (.reject .badTarget)] := by decide
/-- TX-B2 -/
theorem test_setLightBool : outputOf (exec (.setLightBool 5#8 false) on) = some [light 5#8 0x00#8] := by decide
/-- TX-B3 -/
theorem test_setLightBool_target : outputOf (exec (.setLightBool 0xFF#8 true) on) =
    some [.txr (.reject .badTarget)] := by decide
/-- TX-F4 -/
theorem test_flashLight : outputOf (exec (.flashLight 3#8 0x0222#16) on) = some [light 3#8 0x40#8] := by decide
/-- 95_test_vectors.md §2.3: -2 under LITERAL. -/
theorem test_flashLight_literal :
    outputOf (exec (.flashLight 3#8 0x8000#16) { on with params := { flashPolicy := .literal } }) =
      some [light 3#8 0x04#8] := by decide
/-- TX-G7: lights 6, 13, 16 and 33. -/
theorem test_setLightGroup : outputOf (exec (.setLightGroup .string hi 0x200012040#35) on) =
    some [.txr (.msg [0xF0#8, 0x42#8, 0x40#8, 0x6E#8, 0x08#8, 0x3F#8, 0x0A#8, 0x01#8, 0x40#8, 0x40#8, 0x04#8, 0x00#8,
      0x20#8, 0x00#8, 0x20#8, 0x69#8, 0x48#8, 0xF7#8])] := by decide
/-- TX-G8: precomputed bytes are reversed too. -/
theorem test_setLightGroup_bytes : outputOf (exec (.setLightGroup .precomputed ⟨0#8, 1#21, 2#21, 3#21⟩ 0#35) on) =
    some [.txr (.msg [0xF0#8, 0x42#8, 0x40#8, 0x6E#8, 0x08#8, 0x3F#8, 0x0A#8, 0x01#8, 0x00#8, 0x00#8, 0x00#8, 0x00#8,
      0x00#8, 0x00#8, 0x03#8, 0x02#8, 0x01#8, 0xF7#8])] := by decide
/-- TX-R11 -/
theorem test_reservedOp11 : outputOf (exec .reservedOp11 on) = some [.txr (.reject .illegalOp)] := by decide
/-- TX-R12 -/
theorem test_reservedOp12 : outputOf (exec .reservedOp12 on) = some [.txr (.reject .illegalOp)] := by decide
/-- TX-R13 -/
theorem test_reservedOp13 : outputOf (exec .reservedOp13 on) = some [.txr (.reject .illegalOp)] := by decide
/-- TX-R14 -/
theorem test_reservedOp14 : outputOf (exec .reservedOp14 on) = some [.txr (.reject .illegalOp)] := by decide
/-- TX-R15 -/
theorem test_reservedOp15 : outputOf (exec .reservedOp15 on) = some [.txr (.reject .illegalOp)] := by decide

/-! ### Registers and reset -/

/-- CS10 -/
theorem test_csrRead :
    outputOf (exec (.csrRead 1#4) { holding {} .recv (padBytes.take 6) with overflow := true }) =
      some [.csr 0x0006000A#32] := by decide
/-- CS9 -/
theorem test_csrRead_unmapped : outputOf (exec (.csrRead 0xF#4) on) = some [.csr 0#32] := by decide
/-- CS3 -/
theorem test_csrWrite_ctrl : ctrlOf (exec (.csrWrite 0#4 0xFFFFFFFF#32) State.reset) = some 0x1FF#32 := by decide
/-- CS7: the framer is untouched. -/
theorem test_csrWrite_status :
    statusOf (exec (.csrWrite 1#4 0xFFFFFFFF#32) { holding {} .recv (padBytes.take 4) with decodeErr := true }) =
      some 0x00040008#32 := by decide
/-- RS1 -/
theorem test_reset : statusOf (exec .reset { holding {} .recv (padBytes.take 4) with decodeErr := true, abort := true }) =
    some 0#32 := by decide
/-- RS1 -/
theorem test_reset_ctrl : ctrlOf (exec .reset { holding {} .recv (padBytes.take 4) with ctrlInvMode := .handler }) =
    some 0#32 := by decide

/-! ### The framer -/

/-- FR6: `F0` inside a frame. -/
theorem test_rxByte_restart : statusOf (exec (.rxByte 0xF0#8) (holding {} .recv [0xF0#8, 0x42#8])) =
    some 0x0001000C#32 := by decide
/-- P4: the ninth byte of a frame of at most nine. -/
theorem test_rxByte_overflow : statusOf (exec (.rxByte 0x01#8) (holding nine .recv padBytes)) =
    some 0x00080012#32 := by decide

/-! ### Frame classes, reached by the byte that ends the frame -/

/-- CL1 -/
theorem test_padDown : outputOf (step (on.withFetchWord 24 0x454064)) =
    some [.evt (.ev ⟨.padDown, 0#9, 100#8⟩)] := by decide
/-- CL16: disabled. -/
theorem test_padDown_disabled : outputOf (step ({ on with ctrlEn := 0x02#8 }.withFetchWord 24 0x454064)) = some [] := by
  decide
/-- CL2b -/
theorem test_padUp : outputOf (step (on.withFetchWord 24 0x45037F)) = some [.evt (.ev ⟨.padUp, 3#9, 0#8⟩)] := by decide
/-- CL11: no wrap. -/
theorem test_buttonDown : outputOf (step (on.withFetchWord 24 0x48FF7F)) =
    some [.evt (.ev ⟨.buttonDown, 271#9, 0#8⟩)] := by decide
/-- CL4 -/
theorem test_buttonUp : outputOf (step (on.withFetchWord 24 0x480000)) =
    some [.evt (.ev ⟨.buttonUp, 16#9, 0#8⟩)] := by decide
/-- CL13 -/
theorem test_knob : outputOf (step (on.withFetchWord 24 0x490140)) = some [.evt (.ev ⟨.knob, 1#9, 64#8⟩)] := by decide
/-- CL5 -/
theorem test_rotaryRight : outputOf (step (on.withFetchWord 24 0x430001)) =
    some [.evt (.ev ⟨.rotaryRight, 0#9, 0#8⟩)] := by decide
/-- CL6b -/
theorem test_rotaryLeft : outputOf (step (on.withFetchWord 24 0x430002)) =
    some [.evt (.ev ⟨.rotaryLeft, 0#9, 0#8⟩)] := by decide
/-- CL14 -/
theorem test_xy : outputOf (step (on.withFetchWord 24 0x4B1070)) = some [.evt (.ev ⟨.xy, 16#9, 112#8⟩)] := by decide
/-- CL7 -/
theorem test_unknown : outputOf (step (on.withFetchWord 24 0x990000)) =
    some [.err ⟨.unknownClass, [0xF0#8, 0x42#8, 0x40#8, 0x6E#8, 0x08#8, 0x99#8, 0#8, 0#8, 0xF7#8]⟩] := by decide
/-- CL7b -/
theorem test_unknown_handler : outputOf (step ({ on with ctrlInvMode := .handler }.withFetchWord 24 0x990000)) =
    some [.evt (.inv ⟨.unknownClass, [0xF0#8, 0x42#8, 0x40#8, 0x6E#8, 0x08#8, 0x99#8, 0#8, 0#8, 0xF7#8]⟩)] := by decide

/-! ### Records -/

/-- CL11 -/
theorem test_packed_button : packedWord (.ev ⟨.buttonDown, 271#9, 0#8⟩) = 0x0010F2#24 := by decide
/-- FR8 -/
theorem test_packed_overflow : packedWord (.inv ⟨.overflow, []⟩) = 0x800008#24 := by decide

/-! ### Witnesses: concrete states and operands that meet the hypotheses of the obligations, clause by clause -/

theorem holding_holds (st : FrState) : HoldsBytes (holding nine st padBytes) padBytes :=
  stageFrame_holds (f := padBytes ++ [0xF7#8]) (s := { on with params := nine }) (by decide) (by decide)

theorem holding_inv (st : FrState) (h : st ≠ .idle) : MachineInv (holding nine st padBytes) := by
  obtain ⟨hl, hm, hr⟩ := holding_holds st
  refine ⟨⟨by cases st <;> decide, by cases st <;> decide, fun i => ?_, by show 8 + 1 ≤ 9; decide, ?_, fun _ => rfl, fun _ => rfl, ?_⟩, by simp [holding, stageFrame, on, State.reset]⟩
  · rw [hr, ← hl]; simp
  · exact ⟨fun h' => absurd h' h, fun h' => absurd h' (by show ¬((8#16 : BitVec 16) = 0#16); decide)⟩
  · intro i b hi hb
    rw [hr] at hb
    obtain ⟨hlt, rfl⟩ := List.getElem?_eq_some_iff.mp hb
    refine ⟨?_, ?_, fun h' => by cases h'⟩ <;> revert hi <;> revert i <;> decide

theorem witness_ResetStateValues : ∃ s, exec .reset s = .next State.reset := ⟨on, by rfl⟩

theorem witness_StepRunsTheDecodedTransaction :
    let s := on.withFetchWord 160 0x0000000000000000000000000000000000020007
    s.params.legal = true ∧ s.input = [.cmd 0x20007#160] := by decide

theorem witness_WhereStepIsRefused_parameters :
    ({ State.reset with params := { maxFrameLen := 8 } } : State).params.legal = false := by decide

theorem witness_WhereStepIsRefused_input :
    State.reset.params.legal = true ∧ State.reset.input = [] := by decide

theorem witness_EndOfValidFrameRunsItsClass :
    (holding nine .recv padBytes).frState = .recv ∧ HoldsBytes (holding nine .recv padBytes) padBytes ∧
    decodeFrame (holding nine .recv padBytes).params (padBytes ++ [0xF7#8]) = .ok (.padDown 0x40#8 0x64#8) :=
  ⟨rfl, holding_holds _, by rfl⟩

theorem witness_NoTransactionStopsTheBlock :
    let s : State := { State.reset with input := [.rx 0xF0#8] }
    MachineInv s ∧ s.input ≠ [] :=
  ⟨⟨⟨by decide, by decide, by simp [State.reset], by decide, by decide, by decide, by decide,
    by simp [State.reset]⟩, by simp [State.reset]⟩, by simp⟩

theorem witness_StepKeepsTheInvariant :
    let s : State := { holding nine .recv padBytes with input := [.rx 0x01#8] }
    MachineInv s ∧ step s = .next { holding nine .discard padBytes with overflow := true } := by
  have h := holding_inv .recv (by decide)
  exact ⟨⟨⟨h.1.1, h.1.2, h.1.3, h.1.4, h.1.5, h.1.6, h.1.7, h.1.8⟩, h.2⟩, by rfl⟩

theorem witness_EncodeTextResult_length : (⟨2#8, 72#21, 105#21, 0#21⟩ : TextField).tlen ≠ 3#8 := by decide

theorem witness_EncodeTextResult_codePoint :
    let t : TextField := ⟨3#8, 72#21, 105#21, 0x80#21⟩
    t.tlen = 3#8 ∧ (0x7F < t.c0.toNat ∨ 0x7F < t.c1.toNat ∨ 0x7F < t.c2.toNat) := by decide

theorem witness_EncodeTextResult_accepted :
    let t : TextField := ⟨3#8, 0x7F#21, 0#21, 0x7F#21⟩
    t.tlen = 3#8 ∧ t.c0.toNat ≤ 0x7F ∧ t.c1.toNat ≤ 0x7F ∧ t.c2.toNat ≤ 0x7F := by decide

theorem witness_EncodeTextInjective :
    let u : State := { on with output := on.output ++ [.txr (.bytes3 0x48#8 0x69#8 0x20#8)] }
    exec (.encodeText hi) on = .next u ∧ u.output = on.output ++ [.txr (.bytes3 0x48#8 0x69#8 0x20#8)] :=
  ⟨by rfl, rfl⟩

theorem witness_SetLedResult_length : (TextKind.string = .string) ∧ (⟨4#8, 0#21, 0#21, 0#21⟩ : TextField).tlen ≠ 3#8 := by
  decide

theorem witness_SetLedResult_codePoint :
    let t : TextField := ⟨0#8, 0x80#21, 0#21, 0#21⟩
    (TextKind.precomputed = .string → t.tlen = 3#8) ∧ (0x7F < t.c0.toNat ∨ 0x7F < t.c1.toNat ∨ 0x7F < t.c2.toNat) := by
  decide

theorem witness_SetLedResult_accepted :
    let t : TextField := ⟨0#8, 0x7F#21, 0#21, 0x7F#21⟩
    (TextKind.precomputed = .string → t.tlen = 3#8) ∧ t.c0.toNat ≤ 0x7F ∧ t.c1.toNat ≤ 0x7F ∧ t.c2.toNat ≤ 0x7F := by
  decide

theorem witness_SetLightResult_target : 0x7F < (0x80#8).toNat := by decide

theorem witness_SetLightResult_state : (0x7F#8).toNat ≤ 0x7F ∧
    ¬((0x5F#8).toNat = 0x00 ∨ (0x5F#8).toNat = 0x20 ∨ (0x40 ≤ (0x5F#8).toNat ∧ (0x5F#8).toNat ≤ 0x5E) ∨
      (0x5F#8).toNat = 0x60) := by decide

theorem witness_SetLightResult_accepted : (0x7F#8).toNat ≤ 0x7F ∧
    ((0x5E#8).toNat = 0x00 ∨ (0x5E#8).toNat = 0x20 ∨ (0x40 ≤ (0x5E#8).toNat ∧ (0x5E#8).toNat ≤ 0x5E) ∨
      (0x5E#8).toNat = 0x60) := by decide

theorem witness_SetLightBoolResult : 0x7F < (0x80#8).toNat ∧ (0x7F#8).toNat ≤ 0x7F := by decide

theorem witness_FlashLightResult_target : 0x7F < (0x80#8).toNat := by decide

theorem witness_FlashLightResult_range : (0x7F#8).toNat ≤ 0x7F ∧ on.params.flashPolicy = .reject ∧
    16384 < (0x4001#16).toInt ∧ (0xFFFF#16).toInt < 0 := by decide

theorem witness_FlashLightResult_accepted : (0x7F#8).toNat ≤ 0x7F ∧
    (on.params.flashPolicy = .reject → 0 ≤ (0x4000#16).toInt ∧ (0x4000#16).toInt ≤ 16384) ∧
    16384 * (30 : Int) ≤ 30 * flashDuration on.params.flashPolicy 0x4000#16 ∧
    30 * flashDuration on.params.flashPolicy 0x4000#16 < 16384 * (30 + 1) := by decide

theorem witness_FlashLightResult_literal :
    16384 * (-60 : Int) ≤ 30 * flashDuration .literal 0x8000#16 ∧
    30 * flashDuration .literal 0x8000#16 < 16384 * (-60 + 1) ∧
    (BitVec.ofInt 8 (0x40 + (-60)) : Byte) = 0x04#8 := by decide

theorem witness_FlashStateByteRange :
    outputOf (exec (.flashLight 3#8 0x4000#16) on) = some (on.output ++
      [.txr (.msg [0xF0#8, 0x42#8, 0x40#8, 0x6E#8, 0x08#8, 0x01#8, 0x03#8, 0x5E#8, 0xF7#8])]) := by decide

theorem witness_FlashStateByteRange_literal :
    outputOf (exec (.flashLight 3#8 0x7FFF#16) { on with params := { flashPolicy := .literal } }) = some (on.output ++
      [.txr (.msg [0xF0#8, 0x42#8, 0x40#8, 0x6E#8, 0x08#8, 0x01#8, 0x03#8, 0x7B#8, 0xF7#8])]) := by decide

theorem witness_DurationForSpeedGivesSpeed : (0x7F#8).toNat ≤ 0x7F ∧ 30 ≤ 30 ∧ durationForSpeed 30 = 0x4000#16 ∧
    durationForSpeed 1 = 0x0223#16 := by decide

theorem witness_SetLightGroupResult :
    (TextKind.string = .string ∧ (⟨0#8, 0#21, 0#21, 0#21⟩ : TextField).tlen ≠ 3#8) ∧
    ((TextKind.string = .string → (⟨3#8, 0x100#21, 0#21, 0#21⟩ : TextField).tlen = 3#8) ∧ 0x7F < (0x100#21).toNat) ∧
    ((TextKind.string = .string → hi.tlen = 3#8) ∧ hi.c0.toNat ≤ 0x7F ∧ hi.c1.toNat ≤ 0x7F ∧ hi.c2.toNat ≤ 0x7F) := by
  decide

theorem witness_LightIndexOwnsOneMaskBit : 34 < 35 ∧ 4 < 5 ∧ 7 < 8 := by decide

theorem witness_ReservedOpsAreRejected : Instr.reservedOp15 ∈ [Instr.reservedOp11, Instr.reservedOp12,
    Instr.reservedOp13, Instr.reservedOp14, Instr.reservedOp15] := by decide

/-- TX-B1 and TX-B4 differ in `STATE`, which SET_LIGHT_BOOL does not use, and here in bit 159 too. -/
theorem witness_UnusedFieldsAreIgnored :
    let w : CmdWord := 0x0000000000000000000000000000000000100058
    let w' : CmdWord := 0x8000000000000000000000000000000000199058
    w ≠ w' ∧ (cmdOp w).toNat = (cmdOp w').toNat ∧
    ((cmdOp w).toNat ∈ [7, 8, 9] → w.extractLsb' 4 8 = w'.extractLsb' 4 8) ∧
    ((cmdOp w).toNat = 7 → w.extractLsb' 12 8 = w'.extractLsb' 12 8) ∧
    ((cmdOp w).toNat = 8 → w.getLsbD 20 = w'.getLsbD 20) ∧
    ((cmdOp w).toNat = 6 → w.getLsbD 21 = w'.getLsbD 21) ∧
    ((cmdOp w).toNat = 9 → w.extractLsb' 22 16 = w'.extractLsb' 22 16) ∧
    ((cmdOp w).toNat ∈ [6, 10] → w.getLsbD 38 = w'.getLsbD 38) ∧
    ((cmdOp w).toNat ∈ [5, 6, 10] → w.extractLsb' 39 71 = w'.extractLsb' 39 71) ∧
    ((cmdOp w).toNat = 10 → w.extractLsb' 110 35 = w'.extractLsb' 110 35) := by decide

theorem witness_UnmappedCsrReadsZero : 2 ≤ (2#4).toNat ∧ 2 ≤ (0xF#4).toNat := by decide

theorem witness_CsrTransactionsLeaveTheFramer :
    Instr.csrRead 0#4 ∈ [Instr.csrRead 0#4, Instr.csrWrite 0#4 0#32] ∧
    Instr.csrWrite 0#4 0#32 ∈ [Instr.csrRead 0#4, Instr.csrWrite 0#4 0#32] := by decide

/-- CS5 with all three bits. -/
theorem witness_StickyBitsClearOnlyByWriteOrReset :
    let s : State := { on with decodeErr := true, overflow := true, abort := true }
    exec (.csrWrite 1#4 7#32) s = .next on ∧ s.decodeErr = true ∧ on.decodeErr = false ∧ s.overflow = true ∧
      on.overflow = false ∧ s.abort = true ∧ on.abort = false := ⟨by rfl, by decide⟩

/-- FR4 -/
theorem witness_IrqRisesOnlyOnSignalledError :
    let s := holding {} .recv [0xF0#8]
    let t : State := { on with decodeErr := true, output := [.err ⟨.short, [0xF0#8, 0xF7#8]⟩] }
    exec (.rxByte 0xF7#8) s = .next t ∧ irq s = false ∧ irq t = true := ⟨by rfl, by decide⟩

theorem witness_FilteredByteChangesNothing :
    let s := holding { rtFilter := true } .recv [0xF0#8]
    s.params.rtFilter = true ∧ s.frState ≠ .idle ∧ 0xF8 ≤ (0xF8#8).toNat := by decide

theorem witness_FrameStartOpensAFrame : on.params.legal = true ∧ on.frState = .idle := by decide

theorem witness_ByteOutsideAFrameIsDiscarded : on.frState = .idle ∧ 0xF7#8 ≠ 0xF0#8 := by decide

/-- The last byte that is stored, with the filter on and below its range. -/
theorem witness_ByteInsideAFrame_stored :
    let s := holding { maxFrameLen := 9, rtFilter := true } .recv (padBytes.take 7)
    s.params.legal = true ∧ s.frState = .recv ∧ 0xF6#8 ≠ 0xF0#8 ∧ 0xF6#8 ≠ 0xF7#8 ∧
      (s.params.rtFilter = true → (0xF6#8).toNat < 0xF8) ∧ s.frLen.toNat < s.params.maxFrameLen - 1 := by decide

/-- The first byte that is not stored. -/
theorem witness_ByteInsideAFrame_dropped :
    let s := holding nine .recv padBytes
    s.params.legal = true ∧ s.frState = .recv ∧ 0xFF#8 ≠ 0xF0#8 ∧ 0xFF#8 ≠ 0xF7#8 ∧
      (s.params.rtFilter = true → (0xFF#8).toNat < 0xF8) ∧ s.params.maxFrameLen - 1 ≤ s.frLen.toNat := by decide

theorem witness_StartInsideAFrameAborts :
    let s := holding nine .discard padBytes
    s.params.legal = true ∧ s.frState ≠ .idle := by decide

theorem witness_ByteOfOverlongFrameIsDropped :
    (holding nine .discard padBytes).frState = .discard ∧ 0xF8#8 ≠ 0xF0#8 ∧ 0xF8#8 ≠ 0xF7#8 := by decide

theorem witness_EndOfOverlongFrameReportsOverflow :
    (holding nine .discard padBytes).frState = .discard ∧ HoldsBytes (holding nine .discard padBytes) padBytes :=
  ⟨rfl, holding_holds _⟩

/-- FR5a: 8 bytes are too few. -/
theorem witness_InvalidFrameReportsItsFirstFailure_short :
    let s := holding {} .recv (padBytes.take 7)
    s.frState = .recv ∧ HoldsBytes s (padBytes.take 7) ∧ (padBytes.take 7).length + 1 < s.params.minDecodeLen :=
  ⟨rfl, stageFrame_holds (f := padBytes.take 7 ++ [0xF7#8]) (s := on) (by decide) (by decide), by decide⟩

/-- FR11a -/
theorem witness_InvalidFrameReportsItsFirstFailure_preamble :
    let bs := [0xF0#8, 0x42#8, 0x40#8, 0x6E#8, 0x09#8, 0x45#8, 0x40#8, 0x64#8]
    let s := holding {} .recv bs
    s.frState = .recv ∧ HoldsBytes s bs ∧ s.params.minDecodeLen ≤ bs.length + 1 ∧ s.params.preambleCheck = true ∧
      (bs ++ [0xF7#8]).take 5 ≠ [0xF0#8, 0x42#8, 0x40#8, 0x6E#8, 0x08#8] :=
  ⟨rfl, stageFrame_holds (f := [0xF0#8, 0x42#8, 0x40#8, 0x6E#8, 0x09#8, 0x45#8, 0x40#8, 0x64#8] ++ [0xF7#8]) (s := on)
    (by decide) (by decide), by decide⟩

theorem witness_RxByteFrame :
    exec (.rxByte 0xF0#8) on = .next { on with frBuf := [(0, 0xF0#8)], frLen := 1#16, frState := .recv } := by rfl

/-- RxByteFrame's clause on a byte that neither opens nor ends a frame, and its clause on a frame that closes. -/
theorem witness_RxByteFrame_clauses :
    exec (.rxByte 0x64#8) (holding nine .recv (padBytes.take 7)) = .next (holding nine .recv padBytes) ∧
    exec (.rxByte 0xF7#8) (holding {} .recv padBytes) =
      .next { on with output := [.evt (.ev ⟨.padDown, 0#9, 100#8⟩)] } := ⟨by rfl, by rfl⟩

/-- RxByteFrame's clause on branches that store nothing: outside a frame, in DISCARD, filtered, overflowing. -/
theorem witness_RxByteFrame_stores_nothing :
    exec (.rxByte 0xF7#8) on = .next on ∧
    exec (.rxByte 0x01#8) (holding nine .discard padBytes) = .next (holding nine .discard padBytes) ∧
    exec (.rxByte 0xF8#8) (holding { rtFilter := true } .recv padBytes) =
      .next (holding { rtFilter := true } .recv padBytes) ∧
    exec (.rxByte 0x01#8) (holding nine .recv padBytes) =
      .next { holding nine .discard padBytes with overflow := true } ∧
    (holding nine .recv padBytes).params.maxFrameLen - 1 ≤ (holding nine .recv padBytes).frLen.toNat :=
  ⟨by rfl, by rfl, by rfl, by rfl, by decide⟩

/-- The frames of `45 40 64` and `45 3F 64`: the two sides of the pad boundary. -/
theorem witness_ValidFrameHasItsClass_pad :
    let f := nineByteFrame 0x45#8 0x40#8 0x64#8
    let g := nineByteFrame 0x45#8 0x3F#8 0x64#8
    (validate {} f = none ∧ f[5]? = some 0x45#8 ∧ f[6]? = some 0x40#8 ∧ f[7]? = some 0x64#8 ∧ 64 ≤ (0x40#8).toNat) ∧
    (validate {} g = none ∧ g[5]? = some 0x45#8 ∧ g[6]? = some 0x3F#8 ∧ g[7]? = some 0x64#8 ∧ (0x3F#8).toNat < 64) := by
  decide

theorem witness_ValidFrameHasItsClass_button :
    let f := nineByteFrame 0x48#8 0#8 127#8
    let g := nineByteFrame 0x48#8 0#8 126#8
    (validate {} f = none ∧ f[5]? = some 0x48#8 ∧ f[6]? = some 0#8 ∧ f[7]? = some 127#8) ∧
    (validate {} g = none ∧ g[5]? = some 0x48#8 ∧ g[6]? = some 0#8 ∧ g[7]? = some 126#8 ∧ 126#8 ≠ 127#8) := by decide

theorem witness_ValidFrameHasItsClass_rotary :
    let f := nineByteFrame 0x43#8 0#8 1#8
    let g := nineByteFrame 0x43#8 0#8 2#8
    (validate {} f = none ∧ f[5]? = some 0x43#8 ∧ f[6]? = some 0#8 ∧ f[7]? = some 1#8) ∧
    (validate {} g = none ∧ g[5]? = some 0x43#8 ∧ g[6]? = some 0#8 ∧ g[7]? = some 2#8 ∧ 2#8 ≠ 1#8) := by decide

theorem witness_ValidFrameHasItsClass_knob :
    let f := nineByteFrame 0x49#8 0#8 0#8
    validate {} f = none ∧ f[5]? = some 0x49#8 ∧ f[6]? = some 0#8 ∧ f[7]? = some 0#8 := by decide

theorem witness_ValidFrameHasItsClass_xy :
    let f := nineByteFrame 0x4B#8 0#8 0#8
    validate {} f = none ∧ f[5]? = some 0x4B#8 ∧ f[6]? = some 0#8 ∧ f[7]? = some 0#8 := by decide

theorem witness_ValidFrameHasItsClass_unknown :
    let f := nineByteFrame 0x44#8 0#8 0#8
    validate {} f = none ∧ f[5]? = some 0x44#8 ∧ f[6]? = some 0#8 ∧ f[7]? = some 0#8 ∧
      0x44#8 ∉ [0x43#8, 0x45#8, 0x48#8, 0x49#8, 0x4B#8] := by decide

theorem witness_PadFrameResult : 64 ≤ (0x40#8).toNat ∧ (0x3F#8).toNat < 64 := by decide

theorem witness_UnknownClassResult :
    on.ctrlInvMode = .signal ∧ ({ on with ctrlInvMode := .handler } : State).ctrlInvMode = .handler := by decide

theorem witness_FrameOutcomeIgnoresEarlierFrames :
    let s := holding nine .recv padBytes
    let u : State := { holding nine .recv padBytes with abort := true, decodeErr := true, output := [.csr 0#32] }
    s.params = u.params ∧ s.ctrlEn = u.ctrlEn ∧ s.ctrlInvMode = u.ctrlInvMode ∧ s.frState = u.frState ∧
      s.frState ≠ .idle ∧ HoldsBytes s padBytes ∧ HoldsBytes u padBytes ∧ s ≠ u :=
  ⟨rfl, rfl, rfl, rfl, by decide, holding_holds .recv, ⟨(holding_holds .recv).1, (holding_holds .recv).2.1,
    (holding_holds .recv).2.2⟩, by decide⟩

theorem witness_StepAddsAtMostOneOutput :
    step ({ on with input := [.cmd 0xB#160] } : State) = .next { on with output := [.txr (.reject .illegalOp)] } := by rfl

/-- One word for each of the two clauses with every kind of operand; the others differ in OP alone. -/
theorem witness_CommandWordSelectsItsInstruction :
    (0x000100000020400040000690002401800000000A#160).extractLsb' 0 4 = 10#4 ∧
    (0x0000000000000000400006900024018000200006#160).extractLsb' 0 4 = 6#4 ∧
    ∀ op : BitVec 4, (op.setWidth 160).extractLsb' 0 4 = op := by decide

theorem witness_DecodeOfEncodeIsTheInstruction :
    (Instr.setLight 0xFF#8 0xFF#8).wellFormed = true ∧
      (∀ f, encode (.setLight 0xFF#8 0xFF#8) = .frame f → validate {} f = none) := ⟨by rfl, by intro f h; cases h⟩

theorem witness_DecodeOfEncodeIsTheInstruction_frame :
    (Instr.padDown 0x40#8 0xFF#8).wellFormed = true ∧
      (∀ f, encode (.padDown 0x40#8 0xFF#8) = .frame f → validate {} f = none) :=
  ⟨by decide, by intro f h; cases h; decide⟩

theorem witness_WholeFrameIsDelivered :
    let body := padBytes.drop 1
    let s : State := { on with params := nine }
    s.params.legal = true ∧ s.frState = .idle ∧
      (∀ b ∈ body, b ≠ 0xF0#8 ∧ b ≠ 0xF7#8 ∧ (s.params.rtFilter = true → b.toNat < 0xF8)) ∧
      body.length + 2 ≤ s.params.maxFrameLen ∧
      decodeFrame s.params ([0xF0#8] ++ body ++ [0xF7#8]) = .ok (.padDown 0x40#8 0x64#8) :=
  ⟨by decide, by decide, by decide, by decide, by rfl⟩

/-- WholeFrameIsDelivered's clause on a frame that is not valid: FR4. -/
theorem witness_WholeFrameIsDelivered_invalid :
    decodeFrame on.params ([0xF0#8] ++ [] ++ [0xF7#8]) = .error .short := by rfl

/-- FR9b -/
theorem witness_OverlongFrameIsReported :
    let body := padBytes.drop 1 ++ [0x00#8]
    let s : State := { on with params := nine }
    s.params.legal = true ∧ s.frState = .idle ∧
      (∀ b ∈ body, b ≠ 0xF0#8 ∧ b ≠ 0xF7#8 ∧ (s.params.rtFilter = true → b.toNat < 0xF8)) ∧
      s.params.maxFrameLen < body.length + 2 := by decide

/-- CL18 -/
theorem witness_LightAndLedMessagesAreUnknownClass :
    let m := [0xF0#8, 0x42#8, 0x40#8, 0x6E#8, 0x08#8, 0x01#8, 0x00#8, 0x20#8, 0xF7#8]
    let t : State := { on with output := on.output ++ [.txr (.msg m)] }
    on.params.legal = true ∧ on.frState = .idle ∧ exec (.setLight 0#8 0x20#8) on = .next t ∧
      t.output = on.output ++ [.txr (.msg m)] ∧ m.length ≤ on.params.maxFrameLen :=
  ⟨by decide, by decide, by rfl, rfl, by decide⟩

/-- TX-B1 and TX-F1: the other two single-light commands. -/
theorem witness_LightAndLedMessagesAreUnknownClass_light :
    exec (.setLightBool 5#8 true) on = .next { on with output := [light 5#8 0x20#8] } ∧
    exec (.flashLight 3#8 0x2000#16) on = .next { on with output := [light 3#8 0x4F#8] } := ⟨by rfl, by rfl⟩

/-- CL20: TX-L1's message, 12 bytes. -/
theorem witness_LightAndLedMessagesAreUnknownClass_led :
    let m := [0xF0#8, 0x42#8, 0x40#8, 0x6E#8, 0x08#8, 0x22#8, 0x04#8, 0x20#8, 0x48#8, 0x69#8, 0x20#8, 0xF7#8]
    exec (.setLed .string hi false) on = .next { on with output := [.txr (.msg m)] } ∧
      m.length ≤ on.params.maxFrameLen := ⟨by rfl, by decide⟩

/-- CL19: TX-G5's message, 18 bytes. -/
theorem witness_LightAndLedMessagesAreUnknownClass_group :
    let m := [0xF0#8, 0x42#8, 0x40#8, 0x6E#8, 0x08#8, 0x3F#8, 0x0A#8, 0x01#8, 0x01#8, 0x01#8, 0x00#8, 0x00#8, 0x40#8,
      0x00#8, 0x20#8, 0x69#8, 0x48#8, 0xF7#8]
    exec (.setLightGroup .string hi 0x400000081#35) on = .next { on with output := [.txr (.msg m)] } ∧
      m.length ≤ on.params.maxFrameLen := ⟨by rfl, by decide⟩

/-- A frame that fits, at its greatest length, with a byte after the write: PadDown, tag 0. -/
theorem witness_CtrlWriteGovernsTheOpenFrame_event :
    let s := holding nine .recv (padBytes.take 7)
    let kept := padBytes.take 7 ++ [0x64#8].filter (fun b => !(s.params.rtFilter && decide (0xF8 ≤ b.toNat)))
    s.params.legal = true ∧ s.frState = .recv ∧ HoldsBytes s (padBytes.take 7) ∧
      (padBytes.take 7).length < s.params.maxFrameLen ∧ (∀ b ∈ [0x64#8], b ≠ 0xF0#8 ∧ b ≠ 0xF7#8) ∧
      kept.length < s.params.maxFrameLen ∧ decodeFrame s.params (kept ++ [0xF7#8]) = .ok (.padDown 0x40#8 0x64#8) ∧
      eventOf (.padDown 0x40#8 0x64#8) = some ⟨.padDown, 0#9, 0x64#8⟩ :=
  ⟨by decide, rfl, stageFrame_holds (f := padBytes.take 7 ++ [0xF7#8]) (s := { on with params := nine }) (by decide)
    (by decide), by decide, by decide, by decide, by rfl, by rfl⟩

/-- The Invalid clauses: a frame of unknown class, and one that is too short. -/
theorem witness_CtrlWriteGovernsTheOpenFrame_invalid :
    decodeFrame on.params (nineByteFrame 0x44#8 0#8 0#8) = .ok (.unknown (nineByteFrame 0x44#8 0#8 0#8)) ∧
    decodeFrame on.params ([0xF0#8] ++ [0xF7#8]) = .error .short := ⟨by rfl, by rfl⟩

/-- A frame that grows over-long after the write: its ninth byte before the F7 does not fit. -/
theorem witness_CtrlWriteGovernsTheOpenFrame_overlong :
    let s := holding nine .recv padBytes
    s.params.legal = true ∧ s.frState = .recv ∧ HoldsBytes s padBytes ∧ padBytes.length < s.params.maxFrameLen ∧
      (∀ b ∈ [0x00#8], b ≠ 0xF0#8 ∧ b ≠ 0xF7#8) ∧
      s.params.maxFrameLen ≤
        (padBytes ++ [0x00#8].filter (fun b => !(s.params.rtFilter && decide (0xF8 ≤ b.toNat)))).length :=
  ⟨by decide, rfl, holding_holds _, by decide, by decide, by decide⟩

/-- A frame that is over-long before the write. -/
theorem witness_CtrlWriteGovernsTheOpenFrame_discard :
    let s := holding nine .discard padBytes
    s.params.legal = true ∧ s.frState = .discard ∧ HoldsBytes s padBytes ∧ padBytes.length < s.params.maxFrameLen ∧
      (∀ b ∈ [0x02#8, 0xF8#8], b ≠ 0xF0#8 ∧ b ≠ 0xF7#8) :=
  ⟨by decide, rfl, holding_holds _, by decide, by decide⟩

/-- P7 with the frame open at the write: the written INV_MODE decides where the record goes. -/
theorem test_ctrl_write_in_frame :
    runAll (withInput (.csr (csrWord true 0#4 0x100#32) :: (rxOf [] ++ [.rx 0xF7#8])) (holding {} .recv [0xF0#8])) =
      .next { State.reset with ctrlInvMode := .handler, output := [.evt (.inv ⟨.short, [0xF0#8, 0xF7#8]⟩)] } := by rfl

theorem witness_LightsFieldHoldsTheMapping :
    lightsOf [0, 7, 34] = some 0x400000081#35 ∧ (∀ i ∈ [0, 7, 34], i < 35) ∧ lightsOf [35] = none := by decide

theorem witness_TextLineAnswersItsCharacters :
    ['H', 'i'].length ≠ 3 ∧ 'H'.toNat ≤ 0x7F ∧ 'i'.toNat ≤ 0x7F ∧ (Char.ofNat 0x7F).toNat ≤ 0x7F := by decide

theorem witness_TxAndRxDoNotInterfere :
    runAll (withInput [.cmd 0xB#160, .rx 0xF0#8, .csr (csrWord false 0#4 0#32)] on) =
      .next { on with
        frBuf := [(0, 0xF0#8)], frLen := 1#16, frState := .recv
        output := [.txr (.reject .illegalOp), .csr 0xFF#32] } := by rfl

end Sys2Proof.Tests
end

section
/-! The settled obligations of spec/00_scope.md: what a step runs, and where it is refused. -/

namespace Sys2Proof.Proofs

open Sys2Proof.Machine

/-- R171: with nothing pending there is no transaction to take. -/
theorem takeTransaction_nil {s : State} (hs : s.input = []) : takeTransaction s = none := by
  simp only [takeTransaction, hs]

/-- R5: the parameters are checked before anything pending is looked at. -/
theorem step_of_illegal {s : State} (hl : s.params.legal = false) : step s = .refused .illegalParameters := by
  simp only [step, hl, Bool.false_eq_true, if_false]

/-- R171: on a legal instance the end of the host's transactions is the end of the run. -/
theorem step_nil {s : State} (hl : s.params.legal = true) (hs : s.input = []) :
    step s = .refused .noTransaction := by
  simp only [step, hl, if_true, takeTransaction_nil hs]

/-- Settles O3: the step rule of a nonempty queue. -/
theorem stepRunsTheDecodedTransaction : Obligations.StepRunsTheDecodedTransaction :=
  fun _ _ _ hl hs => Laws.step_cons hl hs

/-- Settles O4: one refusal for each of the two states. -/
theorem whereStepIsRefused : Obligations.WhereStepIsRefused :=
  ⟨fun _ hl => step_of_illegal hl, fun _ hl hs => step_nil hl hs⟩

end Sys2Proof.Proofs
end

section
/-! The responses of the commands (R100 to R117), as one function of the parameters and the instruction, and their form
(R49, R53, R104). -/

namespace Sys2Proof.Proofs

open Sys2Proof.Machine Sys2Proof.Safety Sys2Proof.Laws

/-- The record a command appends to `TXR`; none for an instruction of another port. -/
def commandResponse (p : Params) : Instr → Option TxResponse
  | .nativeModeOn => some (.msg Config.seqNativeOn)
  | .nativeModeOff => some (.msg Config.seqNativeOff)
  | .enableOutput => some (.msg Config.seqEnableOutput)
  | .init => some (.msg Config.seqInit)
  | .test => some (.msg Config.seqTest)
  | .encodeText t => some (encodeTextResponse t)
  | .setLed k t blink => some (setLedResponse k t blink)
  | .setLight target state => some (setLightResponse target state)
  | .setLightBool target on => some (setLightBoolResponse target on)
  | .flashLight target dur => some (flashLightResponse p.flashPolicy target dur)
  | .setLightGroup k t lights => some (setLightGroupResponse k t lights)
  | .reservedOp11 | .reservedOp12 | .reservedOp13 | .reservedOp14 | .reservedOp15 => some reservedResponse
  | _ => none

/-- A command appends its response and does nothing else. -/
theorem exec_of_commandResponse {i : Instr} {s : State} {r : TxResponse} (h : commandResponse s.params i = some r) :
    exec i s = .next (emit (.txr r) s) := by
  cases i <;> cases h <;> rfl

/-- Every command word is a command that has a response (R45, R117). -/
theorem exists_commandResponse (p : Params) (w : CmdWord) : ∃ r, commandResponse p (decodeCmd w) = some r := by
  unfold decodeCmd
  split <;> exact ⟨_, rfl⟩

/-- Settles O22: the response is `commandResponse`, which reads the word and the parameters. -/
theorem commandsAreStateless : Obligations.CommandsAreStateless := by
  intro w
  choose f hf using fun p => exists_commandResponse p w
  exact ⟨f, fun s => exec_of_commandResponse (hf s.params)⟩

/-! ### The form of a response -/

/-- A 7-bit value in a byte is at most `0x7F`. -/
theorem toNat_setWidth_le (x : BitVec 7) : (x.setWidth 8 : Byte).toNat ≤ 0x7F := by
  rw [BitVec.toNat_setWidth]; omega

/-- A fixed sequence is a message whose payload begins with `head` (R104). -/
theorem txOk_seqOf {head : Byte} (hh : head.toNat ≤ 0x7F) (rest : List (BitVec 7)) :
    TxOk (.msg (Config.seqOf head rest)) := by
  refine ⟨head :: rest.map (fun x => x.setWidth 8), rfl, List.cons_ne_nil _ _, ?_⟩
  intro b hb
  rcases List.mem_cons.mp hb with rfl | hb
  · exact hh
  · obtain ⟨x, -, rfl⟩ := List.mem_map.mp hb
    exact toNat_setWidth_le x

/-- A message has the form of R49 when its payload is 7-bit. -/
theorem txOk_message {payload : List Byte} (hne : payload ≠ []) (h : ∀ b ∈ payload, b.toNat ≤ 0x7F) :
    TxOk (message payload) :=
  ⟨payload, rfl, hne, h⟩

/-- A command's answer has its form when its accepted response has it: a rejection always has. -/
theorem txOk_orReject {x : Except RejectCode TxResponse} (h : ∀ r, x = .ok r → TxOk r) : TxOk (orReject x) := by
  cases x with
  | ok r => exact h r rfl
  | error c => trivial

/-- An accepted character slot is at most `0x7F` (R103). -/
theorem slotByte_le {c : BitVec 21} {b : Byte} (h : slotByte c = .ok b) : b.toNat ≤ 0x7F := by
  unfold slotByte at h
  split at h
  · cases h
  · cases h
    rw [BitVec.extractLsb'_toNat, Nat.shiftRight_zero]
    omega

/-- The bytes of an accepted text are at most `0x7F` (R103). -/
theorem textBytes_le {asString : Bool} {t : TextField} {x : TextBytes} (h : textBytes asString t = .ok x) :
    x.t0.toNat ≤ 0x7F ∧ x.t1.toNat ≤ 0x7F ∧ x.t2.toNat ≤ 0x7F := by
  unfold textBytes at h
  split at h
  · cases h
  · split at h
    · next h0 h1 h2 => cases h; exact ⟨slotByte_le h0, slotByte_le h1, slotByte_le h2⟩
    all_goals cases h

/-- An accepted target is at most `0x7F` (R102). -/
theorem checkTarget_le {t : Byte} {u : Unit} (h : checkTarget t = .ok u) : t.toNat ≤ 0x7F := by
  unfold checkTarget at h
  split at h
  · cases h
  · omega

/-- An accepted light state is at most `0x7F` (R47). -/
theorem checkState_le {v : Byte} {u : Unit} (h : checkState v = .ok u) : v.toNat ≤ 0x7F := by
  unfold checkState at h
  split at h
  · next hv =>
    simp only [isLightState, Bool.or_eq_true, Bool.and_eq_true, beq_iff_eq, decide_eq_true_eq] at hv
    rcases hv with ((rfl | rfl) | hv) | rfl
    · decide
    · decide
    · omega
    · decide
  · cases h

/-- A duration that passes is a signed 16-bit number under every policy (R114). -/
theorem policedDuration_range {policy : FlashPolicy} {dur : BitVec 16} {v : Int}
    (h : policedDuration policy dur = .ok v) : -32768 ≤ v ∧ v ≤ 32767 := by
  have hlo : -32768 ≤ dur.toInt := BitVec.le_toInt dur
  have hhi : dur.toInt < 32768 := BitVec.toInt_lt
  cases policy with
  | reject =>
    simp only [policedDuration] at h
    split at h
    · cases h
    · cases h; omega
  | clamp => cases h; omega
  | literal => cases h; omega

/-- The state byte of a flash is at most `0x7F`, since `30 × v / 2^14` lies from -60 to 59 (R114). -/
theorem flashState_le {v : Int} (h : -32768 ≤ v ∧ v ≤ 32767) : (flashState v).toNat ≤ 0x7F := by
  have hq : -60 ≤ 30 * v / 16384 ∧ 30 * v / 16384 ≤ 59 := by omega
  rw [flashState, BitVec.toNat_ofInt]
  omega

/-- A single-light message (R49). -/
theorem txOk_lightMessage {target state : Byte} (ht : target.toNat ≤ 0x7F) (hs : state.toNat ≤ 0x7F) :
    TxOk (lightMessage target state) :=
  txOk_message (List.cons_ne_nil _ _) (by simp [ht, hs])

/-- A mask byte holds seven lights (R115). -/
theorem maskByte_le (lights : BitVec 35) (k : Nat) : (maskByte lights k).toNat ≤ 0x7F := toNat_setWidth_le _

theorem txOk_encodeText (t : TextField) : TxOk (encodeTextResponse t) := by
  refine txOk_orReject fun r hr => ?_
  split at hr
  · cases hr
  · next x hx => cases hr; exact textBytes_le hx

theorem txOk_setLed (kind : TextKind) (t : TextField) (blink : Bool) : TxOk (setLedResponse kind t blink) := by
  refine txOk_orReject fun r hr => ?_
  split at hr
  · cases hr
  · next x hx =>
    cases hr
    have hb : (ledState blink).toNat ≤ 0x7F := by cases blink <;> decide
    exact txOk_message (List.cons_ne_nil _ _) (by simp [hb, textBytes_le hx])

theorem txOk_setLight (target state : Byte) : TxOk (setLightResponse target state) := by
  refine txOk_orReject fun r hr => ?_
  split at hr
  · cases hr
  · next ht =>
    split at hr
    · cases hr
    · next hs => cases hr; exact txOk_lightMessage (checkTarget_le ht) (checkState_le hs)

theorem txOk_setLightBool (target : Byte) (on : Bool) : TxOk (setLightBoolResponse target on) := by
  refine txOk_orReject fun r hr => ?_
  split at hr
  · cases hr
  · next ht => cases hr; exact txOk_lightMessage (checkTarget_le ht) (by cases on <;> decide)

theorem txOk_flashLight (policy : FlashPolicy) (target : Byte) (dur : BitVec 16) :
    TxOk (flashLightResponse policy target dur) := by
  refine txOk_orReject fun r hr => ?_
  split at hr
  · cases hr
  · next ht =>
    split at hr
    · cases hr
    · next v hv =>
      cases hr
      exact txOk_lightMessage (checkTarget_le ht) (flashState_le (policedDuration_range hv))

theorem txOk_setLightGroup (kind : TextKind) (t : TextField) (lights : BitVec 35) :
    TxOk (setLightGroupResponse kind t lights) := by
  refine txOk_orReject fun r hr => ?_
  split at hr
  · cases hr
  · next x hx =>
    cases hr
    refine txOk_message (List.cons_ne_nil _ _) ?_
    simp [packLights, maskByte_le, textBytes_le hx]

/-- Every response of a command has its form. -/
theorem txOk_commandResponse {p : Params} {i : Instr} {r : TxResponse} (h : commandResponse p i = some r) : TxOk r := by
  cases i <;> cases h
  case nativeModeOn | nativeModeOff | init => exact txOk_seqOf (by decide) _
  case enableOutput | test => exact txOk_seqOf (toNat_setWidth_le _) _
  case encodeText => exact txOk_encodeText _
  case setLed => exact txOk_setLed _ _ _
  case setLight => exact txOk_setLight _ _
  case setLightBool => exact txOk_setLightBool _ _
  case flashLight => exact txOk_flashLight _ _ _
  case setLightGroup => exact txOk_setLightGroup _ _ _
  case reservedOp11 | reservedOp12 | reservedOp13 | reservedOp14 | reservedOp15 => trivial

end Sys2Proof.Proofs
end

section
/-! What an instruction can do, said once, and from it the two rules of the flags: a sticky bit is cleared only by
software or reset (R19), and irq rises only with a signalled decode error (R20, R149). -/

namespace Sys2Proof.Proofs

open Sys2Proof.Machine Sys2Proof.Safety Sys2Proof.Laws

/-- The ways an instruction that goes on can change the state. -/
inductive Effect (i : Instr) (s : State) : State → Prop
  /-- a command or a CSR_READ -/
  | emits (o : Output) : Effect i s (emit o s)
  /-- a frame of a known class -/
  | dispatches (e : EvRecord) : Effect i s (dispatch e s)
  /-- a frame of an unknown class -/
  | raises (f : List Byte) (hi : i = .invalidUnknownClass f) : Effect i s (raiseDecodeError .unknownClass f s)
  | writes (a : BitVec 4) (d : BitVec 32) (hi : i = .csrWrite a d) : Effect i s (writeCsr a d s)
  | resets (hi : i = .reset) : Effect i s (resetState s)
  | receives (b : Byte) (t : State) (hi : i = .rxByte b) (h : execRxByte b s = .next t) : Effect i s t

/-- An instruction that goes on has one of the effects. -/
theorem exec_effect {i : Instr} {s t : State} (h : exec i s = .next t) : Effect i s t := by
  cases i with
  | rxByte b => exact .receives b t rfl h
  | csrWrite a d => cases h; exact .writes a d rfl
  | reset => cases h; exact .resets rfl
  | invalidUnknownClass f => cases h; exact .raises f rfl
  | padDown | padUp | buttonDown | buttonUp | knob | rotaryRight | rotaryLeft | xy => cases h; exact .dispatches _
  | _ => cases h; exact .emits _

/-! ### Flags under dispatch, the invalid-message path and delivery -/

@[simp] theorem dispatch_decodeErr (e : EvRecord) (s : State) : (dispatch e s).decodeErr = s.decodeErr := by
  rcases dispatch_cases e s with ⟨-, h⟩ | ⟨-, h⟩ <;> rw [h]

@[simp] theorem dispatch_overflow (e : EvRecord) (s : State) : (dispatch e s).overflow = s.overflow := by
  rcases dispatch_cases e s with ⟨-, h⟩ | ⟨-, h⟩ <;> rw [h]

@[simp] theorem dispatch_abort (e : EvRecord) (s : State) : (dispatch e s).abort = s.abort := by
  rcases dispatch_cases e s with ⟨-, h⟩ | ⟨-, h⟩ <;> rw [h]

@[simp] theorem raiseDecodeError_overflow (r : InvReason) (raw : List Byte) (s : State) :
    (raiseDecodeError r raw s).overflow = s.overflow := by
  rcases raiseDecodeError_cases r raw s with ⟨-, h⟩ | ⟨-, h⟩ <;> rw [h]

@[simp] theorem raiseDecodeError_abort (r : InvReason) (raw : List Byte) (s : State) :
    (raiseDecodeError r raw s).abort = s.abort := by
  rcases raiseDecodeError_cases r raw s with ⟨-, h⟩ | ⟨-, h⟩ <;> rw [h]

/-- A delivered frame is dispatched as an event or takes the invalid-message path (R80). -/
theorem deliver_next {f : List Byte} {s t : State} (h : deliver f s = .next t) :
    (∃ e, t = dispatch e s) ∨ ∃ r raw, t = raiseDecodeError r raw s := by
  rcases deliver_cases f s with ⟨-, e, -, -, hd⟩ | ⟨g, -, hd⟩ | ⟨r, -, hd⟩ <;> rw [hd] at h <;> cases h
  · exact .inl ⟨e, rfl⟩
  · exact .inr ⟨_, _, rfl⟩
  · exact .inr ⟨_, _, rfl⟩

/-! ### Sticky bits (R19) -/

/-- Every sticky bit that is set in `s` is set in `t`. -/
structure KeepsSticky (s t : State) : Prop where
  decodeErr : s.decodeErr = true → t.decodeErr = true
  overflow : s.overflow = true → t.overflow = true
  abort : s.abort = true → t.abort = true

theorem dispatch_keepsSticky (e : EvRecord) (s : State) : KeepsSticky s (dispatch e s) :=
  ⟨by simp, by simp, by simp⟩

theorem raiseDecodeError_keepsSticky (r : InvReason) (raw : List Byte) (s : State) :
    KeepsSticky s (raiseDecodeError r raw s) := by
  refine ⟨fun hd => ?_, by simp, by simp⟩
  rcases raiseDecodeError_cases r raw s with ⟨-, h⟩ | ⟨-, h⟩ <;> rw [h]
  exact hd

/-- The delivery of a frame keeps the sticky bits of the state before the frame was closed. -/
theorem deliver_closed_keepsSticky {f : List Byte} {s t : State} (h : deliver f (closed s) = .next t) :
    KeepsSticky s t := by
  rcases deliver_next h with ⟨e, rfl⟩ | ⟨r, raw, rfl⟩
  · obtain ⟨hd, ho, ha⟩ := dispatch_keepsSticky e (closed s)
    exact ⟨hd, ho, ha⟩
  · obtain ⟨hd, ho, ha⟩ := raiseDecodeError_keepsSticky r raw (closed s)
    exact ⟨hd, ho, ha⟩

/-- RX traffic sets sticky bits and clears none. -/
theorem execRxByte_keepsSticky {b : Byte} {s t : State} (h : execRxByte b s = .next t) : KeepsSticky s t := by
  rcases execRxByte_cases h with ⟨rfl, -⟩ | ⟨-, -, rfl⟩ | ⟨-, -, rfl⟩ | ⟨-, -, -, -, -, rfl⟩ | ⟨-, -, -, -, rfl⟩ |
    ⟨-, -, bytes, -, hd⟩ | ⟨-, -, bytes, -, rfl⟩
  · exact ⟨id, id, id⟩
  · exact ⟨id, id, id⟩
  · exact ⟨id, id, fun _ => rfl⟩
  · exact ⟨id, id, id⟩
  · exact ⟨id, fun _ => rfl, id⟩
  · exact deliver_closed_keepsSticky hd
  · obtain ⟨hd, ho, ha⟩ := raiseDecodeError_keepsSticky .overflow (bytes ++ [Config.eox]) (closed s)
    exact ⟨hd, ho, ha⟩

/-- A step that keeps the sticky bits clears none of them. -/
theorem KeepsSticky.elim {s t : State} (h : KeepsSticky s t) {P Q R : Prop} :
    (s.decodeErr = true → t.decodeErr = false → P) ∧ (s.overflow = true → t.overflow = false → Q) ∧
    (s.abort = true → t.abort = false → R) := by
  obtain ⟨hd, ho, ha⟩ := h
  refine ⟨fun h0 h1 => ?_, fun h0 h1 => ?_, fun h0 h1 => ?_⟩
  · exact absurd (hd h0) (by simp [h1])
  · exact absurd (ho h0) (by simp [h1])
  · exact absurd (ha h0) (by simp [h1])

/-- A sticky bit that a CSR_WRITE clears is one that it writes with 1 in STATUS (R131 to R133). -/
theorem writeCsr_clears (a : BitVec 4) (d : BitVec 32) (s : State) :
    (s.decodeErr = true → (writeCsr a d s).decodeErr = false → a = 1#4 ∧ d.getLsbD 0 = true) ∧
    (s.overflow = true → (writeCsr a d s).overflow = false → a = 1#4 ∧ d.getLsbD 1 = true) ∧
    (s.abort = true → (writeCsr a d s).abort = false → a = 1#4 ∧ d.getLsbD 2 = true) := by
  unfold writeCsr
  split
  · exact KeepsSticky.elim ⟨id, id, id⟩
  · split
    · next ha => simp +contextual [writeStatus_eq, ha]
    · exact KeepsSticky.elim ⟨id, id, id⟩

/-- Settles O29: of the effects of an instruction only a CSR_WRITE and a RESET clear a sticky bit. -/
theorem stickyBitsClearOnlyByWriteOrReset : Obligations.StickyBitsClearOnlyByWriteOrReset := by
  intro i s t h
  cases exec_effect h with
  | emits o => exact KeepsSticky.elim ⟨id, id, id⟩
  | dispatches e => exact (dispatch_keepsSticky e s).elim
  | raises f hi => exact (raiseDecodeError_keepsSticky .unknownClass f s).elim
  | receives b _ hi hx => exact (execRxByte_keepsSticky hx).elim
  | resets hi => exact ⟨fun _ _ => .inl hi, fun _ _ => .inl hi, fun _ _ => .inl hi⟩
  | writes a d hi =>
    have written (n : Nat) : a = 1#4 ∧ d.getLsbD n = true →
        i = .reset ∨ ∃ d', i = .csrWrite 1#4 d' ∧ d'.getLsbD n = true :=
      fun ⟨ha, hd⟩ => .inr ⟨d, ha ▸ hi, hd⟩
    obtain ⟨hd, ho, ha⟩ := writeCsr_clears a d s
    exact ⟨fun h0 h1 => written 0 (hd h0 h1), fun h0 h1 => written 1 (ho h0 h1), fun h0 h1 => written 2 (ha h0 h1)⟩

/-! ### The level irq (R20, R149) -/

/-- The step from `s` to `t` reports one decode error on `ERR` under the SIGNAL policy. -/
def SignalsError (s t : State) : Prop := s.ctrlInvMode = .signal ∧ ∃ r, t.output = s.output ++ [.err r]

/-- The invalid-message path raises irq only by signalling (R143, R149). -/
theorem raiseDecodeError_signals {r : InvReason} {raw : List Byte} {s : State} (h0 : s.decodeErr = false)
    (h1 : (raiseDecodeError r raw s).decodeErr = true) : SignalsError s (raiseDecodeError r raw s) := by
  rcases raiseDecodeError_cases r raw s with ⟨hm, h⟩ | ⟨-, h⟩ <;> rw [h] at h1 ⊢
  · exact ⟨hm, _, rfl⟩
  · exact absurd h1 (by simp [h0])

/-- A delivered frame raises irq only by signalling (R80, R149). -/
theorem deliver_signals {f : List Byte} {s t : State} (h : deliver f s = .next t) (h0 : s.decodeErr = false)
    (h1 : t.decodeErr = true) : SignalsError s t := by
  rcases deliver_next h with ⟨e, rfl⟩ | ⟨r, raw, rfl⟩
  · exact absurd h1 (by simp [h0])
  · exact raiseDecodeError_signals h0 h1

/-- Of what RX_BYTE can do only the end of a frame raises irq. -/
theorem execRxByte_signals {b : Byte} {s t : State} (h : execRxByte b s = .next t) (h0 : s.decodeErr = false)
    (h1 : t.decodeErr = true) : SignalsError s t := by
  have of_unchanged (he : t.decodeErr = s.decodeErr) : SignalsError s t := absurd h1 (by simp [he, h0])
  rcases execRxByte_cases h with ⟨rfl, -⟩ | ⟨-, -, rfl⟩ | ⟨-, -, rfl⟩ | ⟨-, -, -, -, -, rfl⟩ | ⟨-, -, -, -, rfl⟩ |
    ⟨-, -, bytes, -, hd⟩ | ⟨-, -, bytes, -, rfl⟩
  · exact of_unchanged rfl
  · exact of_unchanged rfl
  · exact of_unchanged rfl
  · exact of_unchanged rfl
  · exact of_unchanged rfl
  · exact deliver_signals (s := closed s) hd h0 h1
  · exact raiseDecodeError_signals (s := closed s) h0 h1

/-- No write to a register sets DECODE_ERR (R131 to R133). -/
theorem writeCsr_decodeErr_false {a : BitVec 4} {d : BitVec 32} {s : State} (h0 : s.decodeErr = false) :
    (writeCsr a d s).decodeErr = false := by
  unfold writeCsr
  split
  · exact h0
  · split
    · simp [writeStatus_eq, h0]
    · exact h0

/-- Settles O30: of the effects of an instruction only the invalid-message path raises irq. -/
theorem irqRisesOnlyOnSignalledError : Obligations.IrqRisesOnlyOnSignalledError := by
  refine ⟨fun _ => rfl, fun i s t h h0 h1 => ?_⟩
  replace h0 : s.decodeErr = false := h0
  replace h1 : t.decodeErr = true := h1
  cases exec_effect h with
  | emits o => exact absurd h1 (by simp [h0])
  | dispatches e => exact absurd h1 (by simp [h0])
  | writes a d hi => exact absurd h1 (by simp [writeCsr_decodeErr_false h0])
  | resets hi => exact absurd h1 (by simp [resetState, State.reset])
  | raises f hi =>
    obtain ⟨hm, hr⟩ := raiseDecodeError_signals h0 h1
    exact ⟨hm, hr, .inr ⟨f, hi⟩⟩
  | receives b _ hi hx =>
    obtain ⟨hm, hr⟩ := execRxByte_signals hx h0 h1
    exact ⟨hm, hr, .inl ⟨b, hi⟩⟩

end Sys2Proof.Proofs
end

section
/-! The invariant of the machine (R12, R13, R51 to R53, R62 to R68, R141): it holds at reset and every step keeps it. -/

namespace Sys2Proof.Proofs

open Sys2Proof.Machine Sys2Proof.Safety Sys2Proof.Laws

/-! ### The reset state (R24) -/

/-- After RESET every register reads 0, as at the start of a run. -/
theorem csrValue_resetState (a : BitVec 4) (s : State) : csrValue a (resetState s) = 0#32 := by
  have hstart : ∀ a : BitVec 4, csrValue a State.reset = 0#32 := by decide
  exact hstart a

/-- Settles O1: the state a run starts from is what a RESET makes of it. -/
theorem resetStateValues : Obligations.ResetStateValues := by
  intro t ht
  obtain ⟨s, rfl⟩ : ∃ s, t = resetState s := by
    rcases ht with rfl | ⟨s, h⟩
    · exact ⟨State.reset, rfl⟩
    · cases h; exact ⟨s, rfl⟩
  exact ⟨rfl, rfl, read_nil, rfl, rfl, csrValue_resetState 0#4 s, rfl, rfl, rfl, csrValue_resetState 1#4 s, rfl⟩

/-! ### The framer's part -/

/-- The framer's part of the invariant reads the parameters, `FR_BUF`, `FR_LEN` and `FR_STATE` alone. -/
theorem framerInv_of_same {s t : State} (h : FramerInv s) (hp : t.params = s.params) (hb : t.frBuf = s.frBuf)
    (hl : t.frLen = s.frLen) (hs : t.frState = s.frState) : FramerInv t := by
  obtain ⟨h1, h2, h3, h4, h5, h6, h7, h8⟩ := h
  constructor <;> simp only [hp, hb, hl, hs] <;> assumption

/-- What R5 allows bounds the lengths. -/
theorem legal_bounds {p : Params} (h : p.legal = true) :
    8 ≤ p.minDecodeLen ∧ p.minDecodeLen ≤ p.maxFrameLen ∧ p.maxFrameLen ≤ 65535 := by
  simp only [Params.legal, Bool.and_eq_true, Bool.or_eq_true, beq_iff_eq, decide_eq_true_eq] at h
  omega

/-- An empty framer in IDLE (R24, R65, R68). -/
theorem framerInv_of_empty {s : State} (hp : s.params.legal = true) (hb : s.frBuf = []) (hl : s.frLen = 0#16)
    (hs : s.frState = .idle) : FramerInv s := by
  have hmax := legal_bounds hp
  constructor
  case legal => exact hp
  case canonical => rw [hb]; exact wf_nil
  case filled => simp [hb, hl]
  case room => simp only [hl, BitVec.toNat_ofNat]; omega
  case idle_iff => simp [hs, hl]
  case full => simp [hs]
  case start => simp [hs]
  case inner => simp [hb]

/-- A frame that has just been opened (R62, R66). -/
theorem framerInv_of_opened {s : State} (hp : s.params.legal = true) (hb : s.frBuf = [(0, Config.sox)])
    (hl : s.frLen = 1#16) (hs : s.frState = .recv) : FramerInv s := by
  have hmax := legal_bounds hp
  have hread (i : Nat) : Memory.read s.frBuf i = if i = 0 then some Config.sox else none := by rw [hb]; rfl
  constructor
  case legal => exact hp
  case canonical => rw [hb]; rfl
  case filled => intro i; rw [hread, hl]; by_cases hi : i = 0 <;> simp [hi]
  case room => simp only [hl, BitVec.toNat_ofNat]; omega
  case idle_iff => simp [hs, hl]
  case full => simp [hs]
  case start => simp [hread]
  case inner => intro i b hi h; simp [hread, Nat.ne_of_gt hi] at h

/-- A byte stored inside a frame (R64). -/
theorem framerInv_of_stored {s t : State} {b : Byte} (h : FramerInv s) (hr : s.frState = .recv)
    (hsox : b ≠ Config.sox) (heox : b ≠ Config.eox) (hrt : s.params.rtFilter = true → b.toNat < 0xF8)
    (hroom : s.frLen.toNat < s.params.maxFrameLen - 1) (hp : t.params = s.params)
    (hb : t.frBuf = Memory.write s.frBuf s.frLen.toNat b) (hl : t.frLen = s.frLen + 1#16)
    (hs : t.frState = .recv) : FramerInv t := by
  have hmax := legal_bounds h.legal
  have hlen : t.frLen.toNat = s.frLen.toNat + 1 := by
    rw [hl, BitVec.toNat_add, BitVec.toNat_ofNat]; omega
  have hpos : 0 < s.frLen.toNat := by
    have hne : s.frLen ≠ 0#16 := fun h0 => by simpa [hr] using h.idle_iff.mpr h0
    exact Nat.pos_of_ne_zero fun h0 => hne (BitVec.eq_of_toNat_eq h0)
  have hread {i : Nat} (hi : i ≠ s.frLen.toNat) : Memory.read t.frBuf i = Memory.read s.frBuf i := by
    rw [hb, read_write_other _ _ hi]
  have hread_new : Memory.read t.frBuf s.frLen.toNat = some b := by rw [hb, read_write_same]
  constructor
  case legal => rw [hp]; exact h.legal
  case canonical => rw [hb]; exact wf_write _ _ _ h.canonical
  case filled =>
    intro i
    by_cases hi : i = s.frLen.toNat
    · rw [hi, hread_new, hlen]; simp
    · rw [hread hi, h.filled i, hlen]; omega
  case room => rw [hp, hlen]; omega
  case idle_iff =>
    have : t.frLen ≠ 0#16 := fun h0 => by rw [h0] at hlen; simp at hlen
    simp [hs, this]
  case full => simp [hs]
  case start =>
    intro _
    rw [hread (by omega)]
    exact h.start (by simp [hr])
  case inner =>
    intro i c hi hc
    rw [hp]
    by_cases hn : i = s.frLen.toNat
    · rw [hn, hread_new, Option.some.injEq] at hc
      subst hc
      exact ⟨hsox, heox, hrt⟩
    · rw [hread hn] at hc
      exact h.inner i c hi hc

/-- A frame that has grown to its bound (R64). -/
theorem framerInv_of_overflow {s t : State} (h : FramerInv s) (hr : s.frState = .recv)
    (hfull : s.params.maxFrameLen - 1 ≤ s.frLen.toNat) (hp : t.params = s.params) (hb : t.frBuf = s.frBuf)
    (hl : t.frLen = s.frLen) (hs : t.frState = .discard) : FramerInv t := by
  obtain ⟨h1, h2, h3, h4, h5, h6, h7, h8⟩ := h
  constructor <;> simp only [hp, hb, hl, hs]
  case legal => exact h1
  case canonical => exact h2
  case filled => exact h3
  case room => exact h4
  case idle_iff => simpa [hr] using h5
  case full => omega
  case start => exact fun _ => h7 (by simp [hr])
  case inner => exact h8

/-! ### The form of a frame that ends -/

/-- A frame from its `F0` to its `F7` with neither byte between, within `MAX_FRAME_LEN` (R42, R141). -/
structure FrameForm (p : Params) (f : List Byte) : Prop where
  head : f.head? = some Config.sox
  last : f.getLast? = some Config.eox
  shortest : 2 ≤ f.length
  longest : f.length ≤ p.maxFrameLen
  inner : ∀ i b, 0 < i → i + 1 < f.length → f[i]? = some b → b ≠ Config.sox ∧ b ≠ Config.eox

/-- Between steps the framer's buffer holds its `FR_LEN` bytes, and they read back (R12). -/
theorem holds_of_framerInv {s : State} (h : FramerInv s) {bytes : List Byte} (hb : bufferedBytes s = .ok bytes) :
    HoldsBytes s bytes := by
  obtain ⟨bs, hbs⟩ := exists_holds (Nat.le_of_succ_le h.room) h.filled
  rw [bufferedBytes_of_holds hbs] at hb
  cases hb
  exact hbs

/-- The bytes of an open frame with the terminator that ends it. -/
theorem frameForm_of_framerInv {s : State} (h : FramerInv s) (ho : s.frState ≠ .idle) {bytes : List Byte}
    (hb : HoldsBytes s bytes) : FrameForm s.params (bytes ++ [Config.eox]) := by
  obtain ⟨hlen, -, hread⟩ := hb
  have hhead : bytes[0]? = some Config.sox := by rw [← hread]; exact h.start ho
  have hpos : 0 < bytes.length := (List.getElem?_eq_some_iff.mp hhead).1
  have hroom := h.room
  constructor
  case head => rw [List.head?_eq_getElem?, List.getElem?_append_left hpos, hhead]
  case last => simp
  case shortest => rw [List.length_append, List.length_singleton]; omega
  case longest => simpa [hlen] using hroom
  case inner =>
    intro i b hi hlt hib
    have hi' : i < bytes.length := by simpa using hlt
    rw [List.getElem?_append_left hi', ← hread] at hib
    obtain ⟨hsox, heox, -⟩ := h.inner i b hi hib
    exact ⟨hsox, heox⟩

/-- What the reason of an Invalid record says of its frame (R52, R68, R70, R72, R89). -/
def CauseHolds (p : Params) (f : List Byte) : InvReason → Prop
  | .short => f.length < p.minDecodeLen
  | .badPreamble => p.preambleCheck = true ∧ p.minDecodeLen ≤ f.length ∧ f.take 5 ≠ Config.preamble
  | .unknownClass => p.minDecodeLen ≤ f.length ∧ isKnownClass (f.getD 5 0#8) = false
  | .overflow => f.length = p.maxFrameLen

/-- An Invalid record shows a framed string and a reason that holds of it. -/
theorem FrameForm.invOk {p : Params} {f : List Byte} {r : InvReason} (h : FrameForm p f) (hc : CauseHolds p f r) :
    InvOk p ⟨r, f⟩ := by
  obtain ⟨h1, h2, h3, h4, h5⟩ := h
  refine ⟨h1, h2, h3, h4, h5, ?_⟩
  cases r <;> exact hc

/-- An over-long frame is kept to its bound (R68). -/
theorem causeHolds_overflow {s : State} (h : FramerInv s) (hd : s.frState = .discard) {bytes : List Byte}
    (hb : HoldsBytes s bytes) : CauseHolds s.params (bytes ++ [Config.eox]) .overflow := by
  obtain ⟨hlen, -, -⟩ := hb
  show (bytes ++ [Config.eox]).length = s.params.maxFrameLen
  rw [List.length_append, List.length_singleton, hlen, h.full hd]

/-- The reason a frame is rejected with holds of it (R70, R72). -/
theorem causeHolds_of_validate {p : Params} {f : List Byte} {r : InvReason} (hp : p.legal = true)
    (h : validate p f = some r) : CauseHolds p f r := by
  have hmin := legal_bounds hp
  unfold validate at h
  split at h
  · next hlen =>
    cases h
    simpa [CauseHolds, lengthOk] using hlen
  · next hlen =>
    split at h
    · next hpre =>
      cases h
      simp only [lengthOk, Bool.not_eq_true', decide_eq_false_iff_not, not_not] at hlen
      have hfive : 5 ≤ f.length := by omega
      simp only [preambleOk, hfive, decide_true, Bool.true_and, Bool.and_eq_true, Bool.not_eq_true',
        beq_eq_false_iff_ne] at hpre
      exact ⟨hpre.1, hlen, hpre.2⟩
    · cases h

/-- A frame that passes validation has the least length that decodes (R70). -/
theorem minDecodeLen_le_of_validate {p : Params} {f : List Byte} (h : validate p f = none) :
    p.minDecodeLen ≤ f.length := by
  unfold validate at h
  split at h
  · cases h
  · next hlen => simpa [lengthOk] using hlen

/-- Only a class byte outside R43 gives the unknown class, which carries the whole frame (R89). -/
theorem classify_eq_unknown {c d1 d2 : Byte} {f g : List Byte} (h : classify c d1 d2 f = .unknown g) :
    g = f ∧ isKnownClass c = false := by
  unfold classify at h
  split_ifs at h
  cases h
  exact ⟨rfl, by simp [isKnownClass, *]⟩

/-- A payload byte in the nine bits of an event's first operand. -/
theorem toNat_setWidth_nine (d : Byte) : (d.setWidth 9).toNat = d.toNat := by
  rw [BitVec.toNat_setWidth]; omega

/-- A button number is `d1 + 16`, with no wrap (R83, R84). -/
theorem toNat_button (d : Byte) : (d.setWidth 9 + 16#9).toNat = d.toNat + 16 := by
  rw [BitVec.toNat_add, toNat_setWidth_nine, BitVec.toNat_ofNat]; omega

/-- A button event has its range, pressed or released (R83, R84). -/
theorem button_range (d : Byte) : 16 ≤ (d.setWidth 9 + 16#9).toNat ∧ (d.setWidth 9 + 16#9).toNat ≤ 271 := by
  rw [toNat_button]; omega

/-- A knob's index or an x coordinate is a byte (R85, R88). -/
theorem toNat_setWidth_nine_le (d : Byte) : (d.setWidth 9).toNat ≤ 255 := by
  rw [toNat_setWidth_nine]; omega

/-- A struck pad's number is `d1 - 64`, which does not wrap from 64 on (R81). -/
theorem padDown_range {d : Byte} (h : 64 ≤ d.toNat) : (d.setWidth 9 - 64#9).toNat ≤ 191 := by
  rw [BitVec.toNat_sub, toNat_setWidth_nine, BitVec.toNat_ofNat]; omega

/-- The event of a classified frame has its ranges (R81 to R88). -/
theorem evOk_of_classify {c d1 d2 : Byte} {f : List Byte} {e : EvRecord}
    (h : eventOf (classify c d1 d2 f) = some e) : EvOk e := by
  unfold classify at h
  split_ifs at h with hpad hge hbutton hpress hknob hrotary hright hxy <;> cases h
  · exact padDown_range hge
  · exact ⟨(toNat_setWidth_nine d1).trans_lt (Nat.lt_of_not_le hge), rfl⟩
  · exact ⟨(button_range d1).1, (button_range d1).2, rfl⟩
  · exact ⟨(button_range d1).1, (button_range d1).2, rfl⟩
  · exact toNat_setWidth_nine_le d1
  · exact ⟨rfl, rfl⟩
  · exact ⟨rfl, rfl⟩
  · exact toNat_setWidth_nine_le d1

/-- A frame decodes to the unknown class with its cause (R89). -/
theorem decodeFrame_eq_unknown {p : Params} {f g : List Byte} (h : decodeFrame p f = .ok (.unknown g)) :
    g = f ∧ CauseHolds p f .unknownClass := by
  cases hv : validate p f with
  | some r => rw [decodeFrame_of_invalid hv] at h; cases h
  | none =>
    rw [decodeFrame_of_valid hv, Except.ok.injEq] at h
    obtain ⟨hg, hc⟩ := classify_eq_unknown h
    exact ⟨hg, minDecodeLen_le_of_validate hv, hc⟩

/-- A rejected frame carries its cause (R72). -/
theorem causeHolds_of_decodeFrame {p : Params} {f : List Byte} {r : InvReason} (hp : p.legal = true)
    (h : decodeFrame p f = .error r) : CauseHolds p f r := by
  cases hv : validate p f with
  | some r' => rw [decodeFrame_of_invalid hv] at h; cases h; exact causeHolds_of_validate hp hv
  | none => rw [decodeFrame_of_valid hv] at h; cases h

/-- The event of a frame that decodes has its ranges. -/
theorem evOk_of_decodeFrame {p : Params} {f : List Byte} {k : FrameClass} {e : EvRecord}
    (h : decodeFrame p f = .ok k) (he : eventOf k = some e) : EvOk e := by
  cases hv : validate p f with
  | some r => rw [decodeFrame_of_invalid hv] at h; cases h
  | none =>
    rw [decodeFrame_of_valid hv, Except.ok.injEq] at h
    subst h
    exact evOk_of_classify he

/-! ### The invariant -/

/-- A change to the framer that keeps its part, and nothing emitted, keeps the invariant. -/
theorem machineInv_of_framer {s t : State} (h : MachineInv s) (hf : FramerInv t) (hp : t.params = s.params)
    (ho : t.output = s.output) : MachineInv t :=
  ⟨hf, by rw [hp, ho]; exact h.outputs⟩

/-- One more output of its form keeps the invariant. -/
theorem machineInv_of_output {s t : State} {o : Output} (h : MachineInv s) (hf : FramerInv t)
    (hp : t.params = s.params) (ho : t.output = s.output ++ [o]) (hok : OutputOk s.params o) : MachineInv t := by
  refine ⟨hf, fun x hx => ?_⟩
  rw [ho, List.mem_append, List.mem_singleton] at hx
  rw [hp]
  rcases hx with hx | rfl
  · exact h.outputs x hx
  · exact hok

theorem machineInv_emit {s : State} {o : Output} (h : MachineInv s) (ho : OutputOk s.params o) :
    MachineInv (emit o s) :=
  machineInv_of_output h (framerInv_of_same h.framer rfl rfl rfl rfl) rfl rfl ho

theorem machineInv_dispatch {s : State} {e : EvRecord} (h : MachineInv s) (he : EvOk e) :
    MachineInv (dispatch e s) := by
  rcases dispatch_cases e s with ⟨-, hd⟩ | ⟨-, hd⟩ <;> rw [hd]
  · exact machineInv_emit (o := .evt (.ev e)) h he
  · exact h

theorem machineInv_raiseDecodeError {s : State} {r : InvReason} {raw : List Byte} (h : MachineInv s)
    (hr : InvOk s.params ⟨r, raw⟩) : MachineInv (raiseDecodeError r raw s) := by
  rcases raiseDecodeError_cases r raw s with ⟨-, hd⟩ | ⟨-, hd⟩ <;> rw [hd]
  · exact machineInv_of_output (o := .err ⟨r, raw⟩) h (framerInv_of_same h.framer rfl rfl rfl rfl) rfl rfl hr
  · exact machineInv_emit (o := .evt (.inv ⟨r, raw⟩)) h hr

/-- Closing a frame keeps the invariant (R65, R68). -/
theorem machineInv_closed {s : State} (h : MachineInv s) : MachineInv (closed s) :=
  machineInv_of_framer h (framerInv_of_empty h.framer.legal rfl rfl rfl) rfl rfl

/-- The delivery of a frame keeps the invariant (R80). -/
theorem machineInv_deliver {s t : State} {f : List Byte} (h : MachineInv s) (hf : FrameForm s.params f)
    (hd : deliver f s = .next t) : MachineInv t := by
  rcases deliver_cases f s with ⟨k, e, hk, he, hx⟩ | ⟨g, hg, hx⟩ | ⟨r, hr, hx⟩ <;> rw [hx] at hd <;> cases hd
  · exact machineInv_dispatch h (evOk_of_decodeFrame hk he)
  · obtain ⟨rfl, hc⟩ := decodeFrame_eq_unknown hg
    exact machineInv_raiseDecodeError h (hf.invOk hc)
  · exact machineInv_raiseDecodeError h (hf.invOk (causeHolds_of_decodeFrame h.framer.legal hr))

/-- RX_BYTE keeps the invariant, rule by rule (R60 to R68). -/
theorem machineInv_execRxByte {s t : State} {b : Byte} (h : MachineInv s) (hx : execRxByte b s = .next t) :
    MachineInv t := by
  rcases execRxByte_cases hx with ⟨rfl, -⟩ | ⟨-, -, rfl⟩ | ⟨-, -, rfl⟩ | ⟨hr, hsox, heox, hfil, hroom, rfl⟩ |
    ⟨hr, -, -, hfull, rfl⟩ | ⟨hr, -, bytes, hb, hd⟩ | ⟨hr, -, bytes, hb, rfl⟩
  · exact h
  · exact machineInv_of_framer h (framerInv_of_opened h.framer.legal rfl rfl rfl) rfl rfl
  · exact machineInv_of_framer h (framerInv_of_opened h.framer.legal rfl rfl rfl) rfl rfl
  · have hrt : s.params.rtFilter = true → b.toNat < 0xF8 := by simpa [rxFiltered, hr] using hfil
    exact machineInv_of_framer h (framerInv_of_stored h.framer hr hsox heox hrt hroom rfl rfl rfl hr) rfl rfl
  · exact machineInv_of_framer h (framerInv_of_overflow h.framer hr hfull rfl rfl rfl rfl) rfl rfl
  · have hform := frameForm_of_framerInv h.framer (by simp [hr]) (holds_of_framerInv h.framer hb)
    exact machineInv_deliver (machineInv_closed h) hform hd
  · have hbytes := holds_of_framerInv h.framer hb
    have hform := frameForm_of_framerInv h.framer (by simp [hr]) hbytes
    exact machineInv_raiseDecodeError (machineInv_closed h) (hform.invOk (causeHolds_overflow h.framer hr hbytes))

/-- A CSR_WRITE leaves the framer, the parameters and the outputs (R131 to R133). -/
theorem machineInv_writeCsr {s : State} (h : MachineInv s) (a : BitVec 4) (d : BitVec 32) :
    MachineInv (writeCsr a d s) := by
  unfold writeCsr
  split
  · exact machineInv_of_framer h (framerInv_of_same h.framer rfl rfl rfl rfl) rfl rfl
  · split
    · rw [writeStatus_eq]
      exact machineInv_of_framer h (framerInv_of_same h.framer rfl rfl rfl rfl) rfl rfl
    · exact h

/-- RESET empties the framer and retracts no output (R160). -/
theorem machineInv_resetState {s : State} (h : MachineInv s) : MachineInv (resetState s) :=
  machineInv_of_framer h (framerInv_of_empty h.framer.legal rfl rfl rfl) rfl rfl

/-- The instruction of a transaction keeps the invariant, port by port (R3). -/
theorem machineInv_exec_transaction {s t : State} {x : Transaction} (h : MachineInv s)
    (hx : exec (decodeTransaction x) s = .next t) : MachineInv t := by
  cases x with
  | rx b => exact machineInv_execRxByte h hx
  | cmd w =>
    obtain ⟨r, hr⟩ := exists_commandResponse s.params w
    rw [decodeTransaction, exec_of_commandResponse hr] at hx
    cases hx
    exact machineInv_emit h (txOk_commandResponse hr)
  | csr w =>
    rw [decodeTransaction, decodeCsr] at hx
    split at hx
    · cases hx; exact machineInv_writeCsr h _ _
    · cases hx; exact machineInv_emit h trivial
  | reset => cases hx; exact machineInv_resetState h

/-- Settles O7: the oldest transaction leaves the queue, which the invariant does not read, and its instruction keeps
the invariant. -/
theorem stepKeepsTheInvariant : Obligations.StepKeepsTheInvariant := by
  intro s t h hs
  obtain ⟨-, x, rest, -, hx⟩ := step_next hs
  have htaken : MachineInv { s with input := rest } :=
    machineInv_of_framer h (framerInv_of_same h.framer rfl rfl rfl rfl) rfl rfl
  exact machineInv_exec_transaction htaken hx

/-- Settles O8: at reset the framer is empty and nothing has been emitted. -/
theorem resetMeetsTheInvariant : Obligations.ResetMeetsTheInvariant :=
  ⟨framerInv_of_empty (by decide) rfl rfl rfl, fun _ ho => absurd ho List.not_mem_nil⟩

end Sys2Proof.Proofs
end

section
/-! The outputs of a run only grow, by at most one in a step (R39, R91). -/

namespace Sys2Proof.Proofs

open Sys2Proof.Machine Sys2Proof.Safety Sys2Proof.Laws

/-- The outputs of `t` are those of `s`, with at most one after them. -/
def AddsAtMostOneOutput (s t : State) : Prop := t.output = s.output ∨ ∃ o, t.output = s.output ++ [o]

/-- An event is emitted when it is enabled (R90). -/
theorem dispatch_addsAtMostOneOutput (e : EvRecord) (s : State) : AddsAtMostOneOutput s (dispatch e s) := by
  rcases dispatch_cases e s with ⟨-, h⟩ | ⟨-, h⟩ <;> rw [h]
  · exact .inr ⟨_, rfl⟩
  · exact .inl rfl

/-- A decode error is reported once, on `ERR` or on `EVT` (R143). -/
theorem raiseDecodeError_addsAtMostOneOutput (r : InvReason) (raw : List Byte) (s : State) :
    AddsAtMostOneOutput s (raiseDecodeError r raw s) := by
  rcases raiseDecodeError_cases r raw s with ⟨-, h⟩ | ⟨-, h⟩ <;> rw [h] <;> exact .inr ⟨_, rfl⟩

/-- A delivered frame gives at most one record (R91). -/
theorem deliver_addsAtMostOneOutput {f : List Byte} {s t : State} (h : deliver f s = .next t) :
    AddsAtMostOneOutput s t := by
  rcases deliver_next h with ⟨e, rfl⟩ | ⟨r, raw, rfl⟩
  · exact dispatch_addsAtMostOneOutput e s
  · exact raiseDecodeError_addsAtMostOneOutput r raw s

/-- Of what RX_BYTE can do only the end of a frame emits, and closing the frame emits nothing itself (R65, R68). -/
theorem execRxByte_addsAtMostOneOutput {b : Byte} {s t : State} (h : execRxByte b s = .next t) :
    AddsAtMostOneOutput s t := by
  rcases execRxByte_cases h with ⟨rfl, -⟩ | ⟨-, -, rfl⟩ | ⟨-, -, rfl⟩ | ⟨-, -, -, -, -, rfl⟩ | ⟨-, -, -, -, rfl⟩ |
    ⟨-, -, bytes, -, hd⟩ | ⟨-, -, bytes, -, rfl⟩
  · exact .inl rfl
  · exact .inl rfl
  · exact .inl rfl
  · exact .inl rfl
  · exact .inl rfl
  · exact deliver_addsAtMostOneOutput (s := closed s) hd
  · exact raiseDecodeError_addsAtMostOneOutput _ _ (closed s)

/-- A write to a register emits nothing (R131 to R133). -/
@[simp] theorem writeCsr_output (a : BitVec 4) (d : BitVec 32) (s : State) : (writeCsr a d s).output = s.output := by
  unfold writeCsr
  split
  · rfl
  · split
    · rw [writeStatus_eq]
    · rfl

/-- Each effect of an instruction emits at most once. -/
theorem exec_addsAtMostOneOutput {i : Instr} {s t : State} (h : exec i s = .next t) : AddsAtMostOneOutput s t := by
  cases exec_effect h with
  | emits o => exact .inr ⟨o, rfl⟩
  | dispatches e => exact dispatch_addsAtMostOneOutput e s
  | raises f hi => exact raiseDecodeError_addsAtMostOneOutput .unknownClass f s
  | writes a d hi => exact .inl (writeCsr_output a d s)
  | resets hi => exact .inl rfl
  | receives b _ hi hx => exact execRxByte_addsAtMostOneOutput hx

/-- Settles O48: taking the oldest transaction emits nothing, and its instruction emits at most once. -/
theorem stepAddsAtMostOneOutput : Obligations.StepAddsAtMostOneOutput := by
  intro s t h
  obtain ⟨-, x, rest, -, hx⟩ := step_next h
  exact exec_addsAtMostOneOutput (s := { s with input := rest }) hx

end Sys2Proof.Proofs
end

section
/-! The settled obligations of spec/30_encoding.md: the class of a frame, the command word and its fields, decoding
against encoding, the numbers of the records, and the text of a host line. -/

namespace Sys2Proof.Proofs

open Sys2Proof.Machine Sys2Proof.Safety Sys2Proof.Laws

/-! ### The class of a frame (R43) -/

section Classify

variable (d1 d2 : Byte) (f : List Byte)

theorem classify_padDown {d1 : Byte} (h : 64 ≤ d1.toNat) : classify 0x45#8 d1 d2 f = .padDown d1 d2 := if_pos h

theorem classify_padUp {d1 : Byte} (h : d1.toNat < 64) : classify 0x45#8 d1 d2 f = .padUp d1 d2 :=
  if_neg (Nat.not_le.mpr h)

theorem classify_buttonDown : classify 0x48#8 d1 127#8 f = .buttonDown d1 := rfl

theorem classify_buttonUp {d2 : Byte} (h : d2 ≠ 127#8) : classify 0x48#8 d1 d2 f = .buttonUp d1 d2 := if_neg h

theorem classify_knob : classify 0x49#8 d1 d2 f = .knob d1 d2 := rfl

theorem classify_rotaryRight : classify 0x43#8 d1 1#8 f = .rotaryRight d1 := rfl

theorem classify_rotaryLeft {d2 : Byte} (h : d2 ≠ 1#8) : classify 0x43#8 d1 d2 f = .rotaryLeft d1 d2 := if_neg h

theorem classify_xy : classify 0x4B#8 d1 d2 f = .xy d1 d2 := rfl

/-- A class byte that R43 does not name selects the unknown class. -/
theorem classify_unknown {c : Byte} (h : isKnownClass c = false) : classify c d1 d2 f = .unknown f := by
  simp only [isKnownClass, Bool.or_eq_false_iff, beq_eq_false_iff_ne] at h
  obtain ⟨⟨⟨⟨h43, h45⟩, h48⟩, h49⟩, h4B⟩ := h
  simp only [classify, h43, h45, h48, h49, h4B, if_false]

end Classify

/-- The class bytes of R43, as a list. -/
theorem isKnownClass_eq_false_iff (c : Byte) :
    isKnownClass c = false ↔ c ∉ [0x43#8, 0x45#8, 0x48#8, 0x49#8, 0x4B#8] := by
  simp [isKnownClass, and_assoc]

/-- A validated frame has the class that its bytes 5, 6 and 7 select (R71, R80). -/
theorem decodeFrame_of_bytes {p : Params} {f : List Byte} {c d1 d2 : Byte} (hv : validate p f = none)
    (hc : f[5]? = some c) (h1 : f[6]? = some d1) (h2 : f[7]? = some d2) :
    decodeFrame p f = .ok (classify c d1 d2 f) := by
  simp only [decodeFrame_of_valid hv, List.getD_eq_getElem?_getD, hc, h1, h2, Option.getD_some]

/-- Settles O40: a validated frame decodes to its class, and `classify` has one equation for each row of R43. -/
theorem validFrameHasItsClass : Obligations.ValidFrameHasItsClass := by
  intro p f c d1 d2 hv hc h1 h2
  rw [decodeFrame_of_bytes hv hc h1 h2]
  refine ⟨?padDown, ?padUp, ?buttonDown, ?buttonUp, ?knob, ?rotaryRight, ?rotaryLeft, ?xy, ?unknown⟩
  case padDown => rintro rfl h; rw [classify_padDown _ _ h]
  case padUp => rintro rfl h; rw [classify_padUp _ _ h]
  case buttonDown => rintro rfl rfl; rw [classify_buttonDown]
  case buttonUp => rintro rfl h; rw [classify_buttonUp _ _ h]
  case knob => rintro rfl; rw [classify_knob]
  case rotaryRight => rintro rfl rfl; rw [classify_rotaryRight]
  case rotaryLeft => rintro rfl h; rw [classify_rotaryLeft _ _ h]
  case xy => rintro rfl; rw [classify_xy]
  case unknown => intro h; rw [classify_unknown _ _ _ ((isKnownClass_eq_false_iff c).mpr h)]

/-! ### The command word (R44 to R46) -/

/-- Settles O50: `decodeCmd` branches on OP, and each branch reads its operands from the word. -/
theorem commandWordSelectsItsInstruction : Obligations.CommandWordSelectsItsInstruction := by
  intro w
  and_intros
  all_goals
    intro hop
    rw [decodeCmd, cmdOp, hop]
    rfl

/-- The single-bit fields of a word are slices of it of length 1. -/
theorem ofBool_getLsbD_eq_extractLsb' (w : CmdWord) (i : Nat) : BitVec.ofBool (w.getLsbD i) = w.extractLsb' i 1 := by
  ext j hj
  obtain rfl : j = 0 := by omega
  simp

/-- Settles O51: the fields of R44 are adjacent slices of the word, from bit 144 down to bit 0. -/
theorem commandWordIsItsFields : Obligations.CommandWordIsItsFields := by
  intro w
  simp only [cmdWord, cmdOp, cmdFields, ofBool_getLsbD_eq_extractLsb']
  iterate 11 rw [BitVec.extractLsb'_append_extractLsb'_eq_extractLsb' (by decide)]
  rw [BitVec.setWidth_eq_extractLsb' (by decide : 145 ≤ 160)]

/-- A slice of a slice is a slice of the word. -/
theorem extractLsb'_extractLsb'_of_add_le {n start len start' len' : Nat} (w : BitVec n) (h : start' + len' ≤ len) :
    (w.extractLsb' start len).extractLsb' start' len' = w.extractLsb' (start + start') len' := by
  ext i hi
  have hin : start' + i < len := by omega
  simp [hin, Nat.add_assoc]

/-- The text operand is bits 109:39 of the word (R44, R46). -/
theorem cmdFields_text_congr {w w' : CmdWord} (h : w.extractLsb' 39 71 = w'.extractLsb' 39 71) :
    (cmdFields w).text = (cmdFields w').text := by
  have hslice (start len : Nat) (hle : start + len ≤ 71) :
      w.extractLsb' (39 + start) len = w'.extractLsb' (39 + start) len := by
    rw [← extractLsb'_extractLsb'_of_add_le w hle, h, extractLsb'_extractLsb'_of_add_le w' hle]
  simp only [CmdFields.text, cmdFields, TextField.mk.injEq]
  exact ⟨hslice 0 8 (by decide), hslice 8 21 (by decide), hslice 29 21 (by decide), hslice 50 21 (by decide)⟩

/-- Settles O23: a command's instruction is made of the fields its operation code uses, and of nothing else. -/
theorem unusedFieldsAreIgnored : Obligations.UnusedFieldsAreIgnored := by
  intro w w' hop htarget hstate hb hblink hdur hkind htext hlights s
  congr 1
  simp only [decodeCmd, ← hop]
  split
  -- The arms 6 to 11 are OP 5 to 10, the commands that have operands.
  case h_6 h => rw [cmdFields_text_congr (htext (by simp [h]))]
  case h_7 h =>
    have hk : (cmdFields w).tkind = (cmdFields w').tkind := hkind (by simp [h])
    have hbl : (cmdFields w).blink = (cmdFields w').blink := hblink h
    rw [hk, hbl, cmdFields_text_congr (htext (by simp [h]))]
  case h_8 h =>
    have ht : (cmdFields w).target = (cmdFields w').target := htarget (by simp [h])
    have hs : (cmdFields w).state = (cmdFields w').state := hstate h
    rw [ht, hs]
  case h_9 h =>
    have ht : (cmdFields w).target = (cmdFields w').target := htarget (by simp [h])
    have hon : (cmdFields w).b = (cmdFields w').b := hb h
    rw [ht, hon]
  case h_10 h =>
    have ht : (cmdFields w).target = (cmdFields w').target := htarget (by simp [h])
    have hd : (cmdFields w).dur = (cmdFields w').dur := hdur h
    rw [ht, hd]
  case h_11 h =>
    have hk : (cmdFields w).tkind = (cmdFields w').tkind := hkind (by simp [h])
    have hl : (cmdFields w).lights = (cmdFields w').lights := hlights h
    rw [hk, hl, cmdFields_text_congr (htext (by simp [h]))]
  all_goals rfl

/-- Settles O52: each word is laid out at its port and decoded. -/
theorem sampleWordsDecode : Obligations.SampleWordsDecode := by
  unfold Obligations.SampleWordsDecode
  decide

/-! ### Decoding against encoding -/

/-- A frame that passes validation decodes to the instruction of its class. -/
theorem decode_frame {p : Params} {f : List Byte} {k : FrameClass} (h : decodeFrame p f = .ok k) :
    decode p (.frame f) = .ok k.toInstr := by
  simp only [decode, h]

/-- A nine-byte frame that passes validation decodes to the class of its three bytes. -/
theorem decode_nineByteFrame {p : Params} {c d1 d2 : Byte} {k : FrameClass}
    (hv : validate p (nineByteFrame c d1 d2) = none) (hk : classify c d1 d2 (nineByteFrame c d1 d2) = k) :
    decode p (.frame (nineByteFrame c d1 d2)) = .ok k.toInstr :=
  hk ▸ decode_frame (decodeFrame_of_bytes hv rfl rfl rfl)

/-- A frame of an unknown class decodes to itself (R89). -/
theorem decode_unknownFrame {p : Params} {f : List Byte} (hv : validate p f = none)
    (hc : isKnownClass (f.getD 5 0#8) = false) : decode p (.frame f) = .ok (.invalidUnknownClass f) := by
  rw [decode_frame (decodeFrame_of_valid hv), classify_unknown _ _ _ hc]
  rfl

/-- A CSR transaction decodes to the access it was made from (R54). -/
theorem decodeCsr_csrWord (w : Bool) (a : BitVec 4) (d : BitVec 32) :
    decodeCsr (csrWord w a d) = if w then .csrWrite a d else .csrRead a := by
  simp only [decodeCsr, csrWord_write, csrWord_addr, csrWord_data]

/-- Settles O49: the fields of a command or CSR word are read back where they were written, and a frame is classified by
the condition of its row. -/
theorem decodeOfEncodeIsTheInstruction : Obligations.DecodeOfEncodeIsTheInstruction := by
  intro p i hwf hv
  cases i
  case nativeModeOn | nativeModeOff | enableOutput | init | test | encodeText | setLed | setLight | setLightBool
      | flashLight | setLightGroup | reservedOp11 | reservedOp12 | reservedOp13 | reservedOp14 | reservedOp15 =>
    simp only [encode, encodeCmd, decode, decodeTransaction, decodeCmd, cmdOp_cmdWord, cmdFields_cmdWord,
      textKind_ofBit_bit]
    rfl
  case csrRead a => exact congrArg Except.ok (decodeCsr_csrWord false a 0#32)
  case csrWrite a d => exact congrArg Except.ok (decodeCsr_csrWord true a d)
  case rxByte | reset => rfl
  case padDown => exact decode_nineByteFrame (hv _ rfl) (classify_padDown _ _ (of_decide_eq_true hwf))
  case padUp => exact decode_nineByteFrame (hv _ rfl) (classify_padUp _ _ (of_decide_eq_true hwf))
  case buttonUp => exact decode_nineByteFrame (hv _ rfl) (classify_buttonUp _ _ (bne_iff_ne.mp hwf))
  case rotaryLeft => exact decode_nineByteFrame (hv _ rfl) (classify_rotaryLeft _ _ (bne_iff_ne.mp hwf))
  case buttonDown => exact decode_nineByteFrame (hv _ rfl) (classify_buttonDown _ _)
  case knob => exact decode_nineByteFrame (hv _ rfl) (classify_knob _ _ _)
  case rotaryRight => exact decode_nineByteFrame (hv _ rfl) (classify_rotaryRight _ _)
  case xy => exact decode_nineByteFrame (hv _ rfl) (classify_xy _ _ _)
  case invalidUnknownClass f =>
    obtain ⟨-, hc⟩ := Bool.and_eq_true_iff.mp hwf
    exact decode_unknownFrame (hv f rfl) ((Bool.not_eq_true' _).mp hc)

/-! ### The numbers of the records (R51 to R53) -/

/-- The four fields of a packed word of R51 are read back at their positions. -/
theorem extractLsb'_packed (reason : BitVec 3) (b : BitVec 8) (a : BitVec 9) (tag : BitVec 4) :
    (reason ++ b ++ a ++ tag).extractLsb' 0 4 = tag ∧ (reason ++ b ++ a ++ tag).extractLsb' 4 9 = a ∧
    (reason ++ b ++ a ++ tag).extractLsb' 13 8 = b ∧ (reason ++ b ++ a ++ tag).extractLsb' 21 3 = reason := by
  refine ⟨BitVec.extractLsb'_append_eq_right, ?a, ?b, ?reason⟩
  case a => rw [BitVec.extractLsb'_append_eq_of_le (by decide)]; exact BitVec.extractLsb'_append_eq_right
  case b =>
    iterate 2 rw [BitVec.extractLsb'_append_eq_of_le (by decide)]
    exact BitVec.extractLsb'_append_eq_right
  case reason =>
    iterate 2 rw [BitVec.extractLsb'_append_eq_of_le (by decide)]
    exact BitVec.extractLsb'_append_eq_left

/-- An event's REASON is 0 (R51). -/
theorem packedWord_ev (e : EvRecord) : packedWord (.ev e) = 0#3 ++ e.b ++ e.a ++ BitVec.ofNat 4 e.tag.index := by
  have hpad : e.b.setWidth 11 = 0#3 ++ e.b := BitVec.setWidth_eq_append (by decide)
  calc packedWord (.ev e)
      = (e.b ++ e.a).setWidth 20 ++ BitVec.ofNat 4 e.tag.index :=
        BitVec.setWidth_append_of_eq (v' := 20) (w' := 4) rfl
    _ = e.b.setWidth 11 ++ e.a ++ BitVec.ofNat 4 e.tag.index :=
        congrArg (· ++ _) (BitVec.setWidth_append_of_eq (v' := 11) (w' := 9) rfl)
    _ = 0#3 ++ e.b ++ e.a ++ BitVec.ofNat 4 e.tag.index := by rw [hpad]

/-- An Invalid record has tag 8 and no operands (R51, R52). -/
theorem packedWord_inv (r : InvRecord) : packedWord (.inv r) = reasonCode r.reason ++ 0#8 ++ 0#9 ++ 8#4 :=
  BitVec.setWidth_eq _

/-- Settles O47: the packed words have the fields of R51, and the numbers are tables. -/
theorem recordNumbers : Obligations.RecordNumbers := by
  refine ⟨fun e => ?event, fun r => ?invalid, fun r => ?kind, fun c => ?code⟩
  case event =>
    obtain ⟨htag, ha, hb, hreason⟩ := extractLsb'_packed 0#3 e.b e.a (BitVec.ofNat 4 e.tag.index)
    rw [packedWord_ev]
    exact ⟨htag.trans (by cases e.tag <;> rfl), ha, hb, hreason⟩
  case invalid =>
    obtain ⟨htag, ha, hb, hreason⟩ := extractLsb'_packed (reasonCode r.reason) 0#8 0#9 8#4
    rw [packedWord_inv]
    exact ⟨htag, ha, hb, hreason.trans (by cases r.reason <;> rfl)⟩
  case kind => cases r <;> rfl
  case code => cases c <;> rfl

/-! ### The text of a host line (R59, R110, R169) -/

/-- The saturated length of R169 is 3 only for a text of three characters. -/
theorem textOfString_tlen_eq_three_iff (cs : List Char) : (textOfString cs).tlen = 3#8 ↔ cs.length = 3 := by
  simp only [textOfString, ← BitVec.toNat_inj, BitVec.toNat_ofNat]
  omega

/-- The slot of a character up to `0x7F` gives its code point (R103). -/
theorem slotByte_ofNat {n : Nat} (h : n ≤ 0x7F) : slotByte (BitVec.ofNat 21 n) = .ok (BitVec.ofNat 8 n) := by
  have hn : (BitVec.ofNat 21 n).toNat = n := by rw [BitVec.toNat_ofNat]; omega
  rw [slotByte, hn, if_neg (Nat.not_lt.mpr h)]
  congr 1
  rw [← BitVec.toNat_inj, BitVec.extractLsb'_toNat, hn, BitVec.toNat_ofNat, Nat.shiftRight_zero]

/-- R110: a string whose length is not 3 is rejected before its characters are looked at. -/
theorem encodeTextResponse_of_tlen {t : TextField} (h : t.tlen ≠ 3#8) :
    encodeTextResponse t = .reject .badTextLen := by
  simp [encodeTextResponse, textBytes, h, orReject]

/-- R110: a string of length 3 whose slots pass is answered with their bytes in order. -/
theorem encodeTextResponse_of_slots {t : TextField} {x0 x1 x2 : Byte} (hlen : t.tlen = 3#8)
    (h0 : slotByte t.c0 = .ok x0) (h1 : slotByte t.c1 = .ok x1) (h2 : slotByte t.c2 = .ok x2) :
    encodeTextResponse t = .bytes3 x0 x1 x2 := by
  simp [encodeTextResponse, textBytes, hlen, h0, h1, h2, orReject]

/-- The command of the line `text "s"` is the one its text encodes to (R59). -/
theorem decodeTransaction_text (t : TextField) : decodeTransaction (issueCmd 5#4 t.fields) = .encodeText t :=
  Except.ok.inj (decodeOfEncodeIsTheInstruction {} (.encodeText t) rfl nofun)

/-- Settles O59: the line is one ENCODE_TEXT, whose answer depends on the length and then on the characters. -/
theorem textLineAnswersItsCharacters : Obligations.TextLineAnswersItsCharacters := by
  intro s cs
  refine ⟨issueCmd 5#4 (textOfString cs).fields, rfl, ?length, ?characters⟩ <;> rw [decodeTransaction_text]
  case length =>
    intro hlen
    have htlen : (textOfString cs).tlen ≠ 3#8 := mt (textOfString_tlen_eq_three_iff cs).mp hlen
    exact exec_of_commandResponse (congrArg some (encodeTextResponse_of_tlen htlen))
  case characters =>
    rintro a b c rfl ha hb hc
    exact exec_of_commandResponse (congrArg some
      (encodeTextResponse_of_slots rfl (slotByte_ofNat ha) (slotByte_ofNat hb) (slotByte_ofNat hc)))

end Sys2Proof.Proofs
end

section
/-! RX_BYTE rule by rule (R60 to R68): one equation for each rule, and the settled obligations that state a single
rule of spec/40_rx_framer.md. -/

namespace Sys2Proof.Proofs

open Sys2Proof.Machine Sys2Proof.Safety Sys2Proof.Laws

/-! ### What a byte does to the framer -/

/-- The state with a frame just opened: what `openFrame` answers (R62, R66). -/
def opened (s : State) : State := { s with frBuf := [(0, Config.sox)], frLen := 1#16, frState := .recv }

/-- The state with one more byte of the open frame: what `appendByte` answers (R64). -/
def stored (b : Byte) (s : State) : State :=
  { s with frBuf := Memory.write s.frBuf s.frLen.toNat b, frLen := s.frLen + 1#16 }

/-- The state in which the open frame has become over-long (R64). -/
def overflowed (s : State) : State := { s with frState := .discard, overflow := true }

theorem read_opened (s : State) (i : Nat) :
    Memory.read (opened s).frBuf i = if i = 0 then some Config.sox else none := rfl

/-- A frame just opened holds its `F0` (R62). -/
theorem holdsBytes_opened {s : State} (hmax : 0 < s.params.maxFrameLen) : HoldsBytes (opened s) [Config.sox] := by
  refine ⟨rfl, hmax, fun i => ?_⟩
  rw [read_opened]
  cases i with
  | zero => rfl
  | succ i => rfl

theorem read_stored_same (b : Byte) (s : State) : Memory.read (stored b s).frBuf s.frLen.toNat = some b :=
  read_write_same _ _ _

theorem read_stored_other (b : Byte) (s : State) {i : Nat} (hi : i ≠ s.frLen.toNat) :
    Memory.read (stored b s).frBuf i = Memory.read s.frBuf i :=
  read_write_other _ _ hi

/-- FR_LEN does not wrap while there is room for the terminator (R64). -/
theorem toNat_frLen_stored (b : Byte) {s : State} (hl : s.params.legal = true)
    (hroom : s.frLen.toNat < s.params.maxFrameLen - 1) : (stored b s).frLen.toNat = s.frLen.toNat + 1 := by
  obtain ⟨-, -, hmax⟩ := legal_bounds hl
  show (s.frLen + 1#16).toNat = s.frLen.toNat + 1
  rw [BitVec.toNat_add, BitVec.toNat_ofNat]
  omega

/-- The framer holds the stored byte after the earlier ones (R64). -/
theorem holdsBytes_stored {s : State} {bs : List Byte} {b : Byte} (hl : s.params.legal = true)
    (hroom : s.frLen.toNat < s.params.maxFrameLen - 1) (h : HoldsBytes s bs) : HoldsBytes (stored b s) (bs ++ [b]) := by
  obtain ⟨hlen, -, hread⟩ := h
  refine ⟨?_, ?_, fun i => ?_⟩
  · rw [toNat_frLen_stored b hl hroom, List.length_append, hlen, List.length_singleton]
  · show (bs ++ [b]).length ≤ s.params.maxFrameLen
    rw [List.length_append, hlen, List.length_singleton]
    omega
  · by_cases hi : i = s.frLen.toNat
    · rw [hi, read_stored_same, ← hlen, List.getElem?_concat_length]
    · rw [read_stored_other b s hi, hread, List.getElem?_append]
      split
      · rfl
      · rw [List.getElem?_eq_none (by omega), List.getElem?_eq_none (by simp; omega)]

/-! ### The real-time filter (R61) -/

theorem rxFiltered_eq_true {b : Byte} {s : State} (hf : s.params.rtFilter = true) (hs : s.frState ≠ .idle)
    (hb : 0xF8 ≤ b.toNat) : rxFiltered b s = true := by
  simp [rxFiltered, hf, hs, hb]

/-- A byte that R61 does not name passes the filter. -/
theorem rxFiltered_eq_false {b : Byte} {s : State} (hb : s.params.rtFilter = true → b.toNat < 0xF8) :
    rxFiltered b s = false := by
  cases hf : s.params.rtFilter with
  | false => simp [rxFiltered, hf]
  | true => simp [rxFiltered, hb hf]

/-- Outside a frame nothing is filtered (R61). -/
theorem rxFiltered_idle (b : Byte) {s : State} (hs : s.frState = .idle) : rxFiltered b s = false := by
  simp [rxFiltered, hs]

theorem rxFiltered_sox (s : State) : rxFiltered Config.sox s = false := rxFiltered_eq_false fun _ => by decide

theorem rxFiltered_eox (s : State) : rxFiltered Config.eox s = false := rxFiltered_eq_false fun _ => by decide

/-! ### One equation for each rule -/

/-- R61 -/
theorem execRxByte_of_filtered {b : Byte} {s : State} (hf : rxFiltered b s = true) : execRxByte b s = .next s := by
  simp [execRxByte, hf]

/-- R62 -/
theorem execRxByte_idle_sox {s : State} (hmax : 0 < s.params.maxFrameLen) (hs : s.frState = .idle) :
    execRxByte Config.sox s = .next (opened s) := by
  simp [execRxByte, rxFiltered_sox, hs, openFrame_eq hmax, outcomeOf, opened]

/-- R63 -/
theorem execRxByte_idle_other {b : Byte} {s : State} (hs : s.frState = .idle) (hsox : b ≠ Config.sox) :
    execRxByte b s = .next s := by
  simp [execRxByte, rxFiltered_idle b hs, hs, hsox]

/-- A byte other than `F0` and `F7` that comes into an open frame and passes the filter (R64). -/
theorem execRxByte_recv_inner {b : Byte} {s : State} (hs : s.frState = .recv) (hf : rxFiltered b s = false)
    (hsox : b ≠ Config.sox) (heox : b ≠ Config.eox) : execRxByte b s = rxInside b s := by
  simp [execRxByte, hf, hs, hsox, heox]

/-- R64, while there is room. -/
theorem execRxByte_recv_store {b : Byte} {s : State} (hs : s.frState = .recv) (hf : rxFiltered b s = false)
    (hsox : b ≠ Config.sox) (heox : b ≠ Config.eox) (hroom : s.frLen.toNat < s.params.maxFrameLen - 1) :
    execRxByte b s = .next (stored b s) := by
  rw [execRxByte_recv_inner hs hf hsox heox, rxInside, if_pos hroom,
    appendByte_eq (Nat.lt_of_lt_of_le hroom (Nat.sub_le _ _))]
  rfl

/-- R64, without room. -/
theorem execRxByte_recv_overflow {b : Byte} {s : State} (hs : s.frState = .recv) (hf : rxFiltered b s = false)
    (hsox : b ≠ Config.sox) (heox : b ≠ Config.eox) (hfull : s.params.maxFrameLen - 1 ≤ s.frLen.toNat) :
    execRxByte b s = .next (overflowed s) := by
  rw [execRxByte_recv_inner hs hf hsox heox, rxInside, if_neg (Nat.not_lt.mpr hfull)]
  rfl

/-- R65 -/
theorem execRxByte_recv_eox {s : State} {bs : List Byte} (hs : s.frState = .recv) (hb : HoldsBytes s bs) :
    execRxByte Config.eox s = deliver (bs ++ [Config.eox]) (closed s) := by
  have hend : rxEnd s = deliver (bs ++ [Config.eox]) (closed s) := by
    rw [rxEnd, bufferedBytes_of_holds hb]
    rfl
  simp [execRxByte, rxFiltered_eox, hs, hend]

/-- R66 -/
theorem execRxByte_open_sox {s : State} (hmax : 0 < s.params.maxFrameLen) (hs : s.frState ≠ .idle) :
    execRxByte Config.sox s = .next (opened (setAbort s)) := by
  have hrestart : rxRestart s = .next (opened (setAbort s)) := by
    rw [rxRestart, openFrame_eq (s := setAbort s) hmax]
    rfl
  have hne : Config.sox ≠ Config.eox := by decide
  cases hst : s.frState with
  | idle => exact absurd hst hs
  | recv | discard => simp [execRxByte, rxFiltered_sox, hst, hne, hrestart]

/-- R67 -/
theorem execRxByte_discard_other {b : Byte} {s : State} (hs : s.frState = .discard) (hsox : b ≠ Config.sox)
    (heox : b ≠ Config.eox) : execRxByte b s = .next s := by
  simp [execRxByte, hs, hsox, heox]

/-- R68 -/
theorem execRxByte_discard_eox {s : State} {bs : List Byte} (hs : s.frState = .discard) (hb : HoldsBytes s bs) :
    execRxByte Config.eox s = .next (raiseDecodeError .overflow (bs ++ [Config.eox]) (closed s)) := by
  have hend : rxEndOverlong s = .next (raiseDecodeError .overflow (bs ++ [Config.eox]) (closed s)) := by
    rw [rxEndOverlong, bufferedBytes_of_holds hb]
    rfl
  simp [execRxByte, rxFiltered_eox, hs, hend]

/-! ### The end of a frame -/

/-- The invalid-message path reports the record as R143 says. -/
theorem raiseDecodeError_eq_reported (r : InvReason) (raw : List Byte) (s : State) :
    raiseDecodeError r raw s = reported ⟨r, raw⟩ s := by
  unfold reported
  rcases raiseDecodeError_cases r raw s with ⟨hm, h⟩ | ⟨hm, h⟩ <;> rw [h, hm]

/-- The delivery of a frame that decodes runs the instruction of its class (R80). -/
theorem deliver_of_ok {f : List Byte} {s : State} {k : FrameClass} (h : decodeFrame s.params f = .ok k) :
    deliver f s = exec k.toInstr s := by
  simp only [deliver, h, exec_toInstr]

/-- The delivery of a frame that is rejected reports the reason (R72, R143). -/
theorem deliver_of_error {f : List Byte} {s : State} {r : InvReason} (h : decodeFrame s.params f = .error r) :
    deliver f s = .next (reported ⟨r, f⟩ s) := by
  simp only [deliver, h, raiseDecodeError_eq_reported]

/-- R70: the length is checked first. -/
theorem validate_short {p : Params} {f : List Byte} (h : f.length < p.minDecodeLen) : validate p f = some .short := by
  simp [validate, lengthOk, h]

/-- R69: a frame that is long enough is checked for the preamble. -/
theorem validate_badPreamble {p : Params} {f : List Byte} (hlen : p.minDecodeLen ≤ f.length)
    (hp : p.preambleCheck = true) (h : f.take 5 ≠ Config.preamble) : validate p f = some .badPreamble := by
  simp [validate, lengthOk, hlen, hp, preambleOk, h]

/-! ### Settled -/

/-- Settles O31: R61 comes before the branch on FR_STATE. -/
theorem filteredByteChangesNothing : Obligations.FilteredByteChangesNothing :=
  fun _ _ hf hs hb => execRxByte_of_filtered (rxFiltered_eq_true hf hs hb)

/-- Settles O32: the frame just opened holds its `F0` and nothing else. -/
theorem frameStartOpensAFrame : Obligations.FrameStartOpensAFrame := by
  intro s hl hs
  have hmax := legal_bounds hl
  exact ⟨opened s, execRxByte_idle_sox (by omega) hs, rfl, rfl,
    fun i hi => (read_opened s i).trans (if_neg (Nat.ne_of_gt hi)), rfl⟩

/-- Settles O33: outside a frame nothing is filtered, and only an `F0` has an effect. -/
theorem byteOutsideAFrameIsDiscarded : Obligations.ByteOutsideAFrameIsDiscarded :=
  fun _ _ hs hsox => execRxByte_idle_other hs hsox

/-- Settles O36: R67 holds whether or not the filter names the byte. -/
theorem byteOfOverlongFrameIsDropped : Obligations.ByteOfOverlongFrameIsDropped :=
  fun _ _ hs hsox heox => execRxByte_discard_other hs hsox heox

/-- Settles O34: the two branches of R64, by the room in the frame. -/
theorem byteInsideAFrame : Obligations.ByteInsideAFrame := by
  intro s b hl hs hsox heox hb
  have hf := rxFiltered_eq_false hb
  refine ⟨fun hroom => ?_, fun hfull => execRxByte_recv_overflow hs hf hsox heox hfull⟩
  exact ⟨stored b s, execRxByte_recv_store hs hf hsox heox hroom, rfl, toNat_frLen_stored b hl hroom,
    read_stored_same b s, fun _ hi => read_stored_other b s hi⟩

/-- Settles O35: R66 in both states of an open frame. -/
theorem startInsideAFrameAborts : Obligations.StartInsideAFrameAborts := by
  intro s hl hs
  have hmax := legal_bounds hl
  exact ⟨opened (setAbort s), execRxByte_open_sox (by omega) hs, rfl, rfl,
    fun i hi => (read_opened (setAbort s) i).trans (if_neg (Nat.ne_of_gt hi))⟩

/-- Settles O37: R68 reads the retained bytes back and takes the invalid-message path. -/
theorem endOfOverlongFrameReportsOverflow : Obligations.EndOfOverlongFrameReportsOverflow := by
  intro s bs hs hb
  rw [← raiseDecodeError_eq_reported]
  exact execRxByte_discard_eox hs hb

/-- Settles O5: R65 delivers the frame on the closed state, and it decodes. -/
theorem endOfValidFrameRunsItsClass : Obligations.EndOfValidFrameRunsItsClass :=
  fun s _ _ hs hb hk => (execRxByte_recv_eox hs hb).trans (deliver_of_ok (s := closed s) hk)

/-- Settles O38: R65 delivers the frame on the closed state, and validation rejects it with the reason. -/
theorem invalidFrameReportsItsFirstFailure : Obligations.InvalidFrameReportsItsFirstFailure := by
  intro s bs r hs hb hr
  have hlen : (bs ++ [0xF7#8]).length = bs.length + 1 := List.length_append
  have hv : validate s.params (bs ++ [0xF7#8]) = some r := by
    rcases hr with ⟨hshort, rfl⟩ | ⟨hlong, hp, hpre, rfl⟩
    · exact validate_short (hlen ▸ hshort)
    · exact validate_badPreamble (hlen ▸ hlong) hp hpre
  exact (execRxByte_recv_eox hs hb).trans (deliver_of_error (s := closed s) (decodeFrame_of_invalid hv))

end Sys2Proof.Proofs
end

section
/-! The frame of RX_BYTE: what it leaves unchanged in every branch (R12, R60 to R68). -/

namespace Sys2Proof.Proofs

open Sys2Proof.Machine Sys2Proof.Safety Sys2Proof.Laws

/-- The state `t` has the parameters, the CTRL, the pending transactions, the TXR records and the CSR results of `s`. -/
structure RxLeaves (s t : State) : Prop where
  params : t.params = s.params
  ctrlEn : t.ctrlEn = s.ctrlEn
  ctrlInvMode : t.ctrlInvMode = s.ctrlInvMode
  input : t.input = s.input
  txr : txrOf t.output = txrOf s.output
  csr : csrOf t.output = csrOf s.output

/-- An event is a record on EVT alone (R90). -/
theorem dispatch_rxLeaves (e : EvRecord) (s : State) : RxLeaves s (dispatch e s) := by
  rcases dispatch_cases e s with ⟨-, h⟩ | ⟨-, h⟩ <;> rw [h] <;> constructor <;> simp [txrOf, csrOf]

/-- An Invalid record is one on ERR or on EVT (R143). -/
theorem raiseDecodeError_rxLeaves (r : InvReason) (raw : List Byte) (s : State) :
    RxLeaves s (raiseDecodeError r raw s) := by
  rcases raiseDecodeError_cases r raw s with ⟨-, h⟩ | ⟨-, h⟩ <;> rw [h] <;> constructor <;> simp [txrOf, csrOf]

/-- Closing the frame touches the framer alone (R65, R68). -/
theorem rxLeaves_of_closed {s t : State} (h : RxLeaves (closed s) t) : RxLeaves s t := by
  obtain ⟨hp, he, hm, hi, ht, hc⟩ := h
  exact ⟨hp, he, hm, hi, ht, hc⟩

theorem execRxByte_rxLeaves {b : Byte} {s t : State} (h : execRxByte b s = .next t) : RxLeaves s t := by
  rcases execRxByte_cases h with ⟨rfl, -⟩ | ⟨-, -, rfl⟩ | ⟨-, -, rfl⟩ | ⟨-, -, -, -, -, rfl⟩ | ⟨-, -, -, -, rfl⟩ |
    ⟨-, -, bytes, -, hd⟩ | ⟨-, -, bytes, -, rfl⟩
  iterate 5 exact ⟨rfl, rfl, rfl, rfl, rfl, rfl⟩
  · apply rxLeaves_of_closed
    rcases deliver_next hd with ⟨e, rfl⟩ | ⟨r, raw, rfl⟩
    · exact dispatch_rxLeaves e _
    · exact raiseDecodeError_rxLeaves r raw _
  · exact rxLeaves_of_closed (raiseDecodeError_rxLeaves _ _ _)

/-- A byte other than `F0` and `F7` is stored within the bound of R64, makes the frame over-long, or does nothing. -/
theorem execRxByte_inner_cases {b : Byte} {s t : State} (hsox : b ≠ Config.sox) (heox : b ≠ Config.eox)
    (h : execRxByte b s = .next t) :
    t = s ∨ t = overflowed s ∨
    (s.frState = .recv ∧ rxFiltered b s = false ∧ s.frLen.toNat < s.params.maxFrameLen - 1 ∧ t = stored b s) := by
  rcases execRxByte_cases h with ⟨ht, -⟩ | ⟨-, hb, -⟩ | ⟨-, hb, -⟩ | ⟨hs, -, -, hf, hroom, ht⟩ | ⟨-, -, -, -, ht⟩ |
    ⟨-, hb, -⟩ | ⟨-, hb, -⟩
  · exact .inl ht
  · exact absurd hb hsox
  · exact absurd hb hsox
  · exact .inr (.inr ⟨hs, hf, hroom, ht⟩)
  · exact .inr (.inl ht)
  · exact absurd hb heox
  · exact absurd hb heox

/-- Only the terminator closes a frame (R65, R68). -/
theorem execRxByte_closes_only_eox {b : Byte} {s t : State} (h : execRxByte b s = .next t) (ht : t.frState = .idle)
    (hs : s.frState ≠ .idle) : b = Config.eox := by
  rcases execRxByte_cases h with ⟨rfl, -⟩ | ⟨hi, -⟩ | ⟨-, -, rfl⟩ | ⟨-, -, -, -, -, rfl⟩ | ⟨-, -, -, -, rfl⟩ |
    ⟨-, hb, -⟩ | ⟨-, hb, -⟩
  · exact absurd ht hs
  · exact absurd hi hs
  · cases ht
  · exact absurd ht hs
  · cases ht
  · exact hb
  · exact hb

/-- The branches that store no byte and end no frame: outside a frame (R63), in DISCARD (R67), filtered (R61),
overflowing (R64). -/
def StoresNothing (b : Byte) (s : State) : Prop :=
  (s.frState = .idle ∧ b ≠ Config.sox) ∨ (s.frState = .discard ∧ b ≠ Config.sox ∧ b ≠ Config.eox) ∨
  (s.params.rtFilter = true ∧ s.frState ≠ .idle ∧ 0xF8 ≤ b.toNat) ∨
  (s.frState = .recv ∧ b ≠ Config.sox ∧ b ≠ Config.eox ∧ s.params.maxFrameLen - 1 ≤ s.frLen.toNat)

/-- A branch that stores nothing changes nothing, or makes the frame over-long. -/
theorem execRxByte_storesNothing {b : Byte} {s t : State} (hb : StoresNothing b s) (h : execRxByte b s = .next t) :
    t = s ∨ t = overflowed s := by
  have of_unchanged (hx : execRxByte b s = .next s) : t = s := by rw [hx] at h; cases h; rfl
  rcases hb with ⟨hs, hsox⟩ | ⟨hs, hsox, heox⟩ | ⟨hf, hs, hb⟩ | ⟨-, hsox, heox, hfull⟩
  · exact .inl (of_unchanged (execRxByte_idle_other hs hsox))
  · exact .inl (of_unchanged (execRxByte_discard_other hs hsox heox))
  · exact .inl (of_unchanged (execRxByte_of_filtered (rxFiltered_eq_true hf hs hb)))
  · rcases execRxByte_inner_cases hsox heox h with ht | ht | ⟨-, -, hroom, -⟩
    · exact .inl ht
    · exact .inr ht
    · exact absurd hroom (Nat.not_lt.mpr hfull)

/-- Settles O39: the common frame, the sticky bits, and then the branches by the byte. -/
theorem rxByteFrame : Obligations.RxByteFrame := by
  intro s t b h
  obtain ⟨hp, he, hm, hi, ht, hc⟩ := execRxByte_rxLeaves h
  obtain ⟨hd, ho, ha⟩ := execRxByte_keepsSticky h
  refine ⟨hp, he, hm, hi, ht, hc, hd, ho, ha, ?inner, ?nothing, fun ⟨hti, hsi⟩ => execRxByte_closes_only_eox h hti hsi⟩
  case inner =>
    intro hsox heox
    rcases execRxByte_inner_cases hsox heox h with rfl | rfl | ⟨-, -, -, rfl⟩
    · exact ⟨rfl, fun _ _ => rfl⟩
    · exact ⟨rfl, fun _ _ => rfl⟩
    · exact ⟨rfl, fun _ hi => read_stored_other b s hi⟩
  case nothing =>
    intro hb
    rcases execRxByte_storesNothing hb h with rfl | rfl <;> exact ⟨rfl, rfl, fun _ => rfl⟩

end Sys2Proof.Proofs
end

section
/-! A frame presented byte by byte (R61 to R68): what the framer holds after each byte, and how the run ends at the
terminator. -/

namespace Sys2Proof.Proofs

open Sys2Proof.Machine Sys2Proof.Safety Sys2Proof.Laws

/-- The bytes of `bs` that the real-time filter lets into an open frame (R61). -/
def kept (p : Params) (bs : List Byte) : List Byte := bs.filter (fun b => !(p.rtFilter && decide (0xF8 ≤ b.toNat)))

theorem kept_append (p : Params) (bs cs : List Byte) : kept p (bs ++ cs) = kept p bs ++ kept p cs :=
  List.filter_append bs cs

/-- Where the filter names no byte all are kept. -/
theorem kept_of_unfiltered {p : Params} {bs : List Byte} (h : ∀ b ∈ bs, p.rtFilter = true → b.toNat < 0xF8) :
    kept p bs = bs := by
  refine List.filter_eq_self.mpr fun b hb => ?_
  cases hp : p.rtFilter with
  | false => rfl
  | true => simp [h b hb hp]

/-- A byte that comes into an open frame is filtered, or kept. -/
theorem kept_singleton {b : Byte} {s : State} (hs : s.frState ≠ .idle) :
    kept s.params [b] = if rxFiltered b s then [] else [b] := by
  have hf : rxFiltered b s = (s.params.rtFilter && decide (0xF8 ≤ b.toNat)) := by
    simp [rxFiltered, bne_iff_ne.mpr hs]
  rw [hf, kept, List.filter_singleton]
  cases s.params.rtFilter && decide (0xF8 ≤ b.toNat) <;> rfl

/-- The framer of `u` is inside a frame of which `seen` has come in, and `c` is, but for OVERFLOW, the state that its
end leaves with nothing pending: the frame still fits with a terminator (R64), or it is over-long and its first bytes
are retained (R67). -/
inductive Receiving (c : State) (seen : List Byte) (u : State) : Prop
  | fits (hs : u.frState = .recv) (hb : HoldsBytes u seen) (hroom : seen.length < c.params.maxFrameLen)
      (hc : closed (withInput [] u) = c)
  | overlong (hs : u.frState = .discard) (hb : HoldsBytes u (seen.take (c.params.maxFrameLen - 1)))
      (hlong : c.params.maxFrameLen ≤ seen.length) (hc : closed (withInput [] u) = { c with overflow := true })

/-- What the terminator of a frame does when `seen` has come in before it: the frame is delivered (R65), or reported as
over-long with its first bytes (R68). -/
def endOfFrame (c : State) (seen : List Byte) : Host.Outcome State Fault Refusal :=
  if seen.length < c.params.maxFrameLen then deliver (seen ++ [Config.eox]) c
  else .next (reported ⟨.overflow, seen.take (c.params.maxFrameLen - 1) ++ [Config.eox]⟩ { c with overflow := true })

section Receiving

variable {c s u : State} {seen bs : List Byte} {b : Byte}

theorem Receiving.frState_ne_idle (h : Receiving c seen u) : u.frState ≠ .idle := by
  cases h with
  | fits hs | overlong hs => simp [hs]

theorem Receiving.params_eq (h : Receiving c seen u) : u.params = c.params := by
  cases h with
  | fits _ _ _ hc | overlong _ _ _ hc => exact congrArg (·.params) hc

/-- What the framer holds does not depend on what the host has still to issue. -/
theorem Receiving.with_pending (h : Receiving c seen u) (ts : List Transaction) :
    Receiving c seen (withInput ts u) := by
  cases h with
  | fits hs hb hroom hc => exact .fits hs hb hroom hc
  | overlong hs hb hlong hc => exact .overlong hs hb hlong hc

/-- R62: the `F0` of a frame. -/
theorem receiving_opened (hl : s.params.legal = true) :
    Receiving (closed (withInput [] s)) [Config.sox] (opened s) := by
  have hmax := legal_bounds hl
  have hone : 1 < s.params.maxFrameLen := by omega
  exact .fits rfl (holdsBytes_opened (Nat.zero_lt_of_lt hone)) hone rfl

/-- R64: one more byte of a frame that fits, stored or the one that makes the frame over-long. -/
theorem receiving_inner (hl : c.params.legal = true) (hs : u.frState = .recv) (hb : HoldsBytes u seen)
    (hroom : seen.length < c.params.maxFrameLen) (hc : closed (withInput [] u) = c) (hf : rxFiltered b u = false)
    (hsox : b ≠ Config.sox) (heox : b ≠ Config.eox) :
    ∃ v, execRxByte b u = .next v ∧ v.input = u.input ∧ Receiving c (seen ++ [b]) v := by
  have hp : u.params = c.params := congrArg (·.params) hc
  have hlen : seen.length = u.frLen.toNat := hb.1
  have happ : (seen ++ [b]).length = seen.length + 1 := List.length_append
  by_cases hr : u.frLen.toNat < u.params.maxFrameLen - 1
  · refine ⟨stored b u, execRxByte_recv_store hs hf hsox heox hr, rfl, .fits hs ?_ ?_ hc⟩
    · exact holdsBytes_stored (hp ▸ hl) hr hb
    · rw [happ, ← hp]; omega
  · have hfull : c.params.maxFrameLen - 1 = seen.length := by rw [hp] at hr; omega
    refine ⟨overflowed u, execRxByte_recv_overflow hs hf hsox heox (Nat.not_lt.mp hr), rfl, .overlong rfl ?_ ?_ ?_⟩
    · rw [hfull, List.take_left]; exact hb
    · omega
    · rw [← hc]; rfl

/-- A byte inside the frame, by the rules R61, R64 and R67. -/
theorem Receiving.step_inner (h : Receiving c seen u) (hl : c.params.legal = true) (hsox : b ≠ Config.sox)
    (heox : b ≠ Config.eox) :
    ∃ v, execRxByte b u = .next v ∧ v.input = u.input ∧ Receiving c (seen ++ kept c.params [b]) v := by
  rw [← h.params_eq, kept_singleton h.frState_ne_idle]
  cases hf : rxFiltered b u with
  | true => exact ⟨u, execRxByte_of_filtered hf, rfl, by simpa using h⟩
  | false =>
    cases h with
    | fits hs hb hroom hc => exact receiving_inner hl hs hb hroom hc hf hsox heox
    | overlong hs hb hlong hc =>
      refine ⟨u, execRxByte_discard_other hs hsox heox, rfl, .overlong hs ?_ ?_ hc⟩
      · rwa [List.take_append_of_le_length (by omega)]
      · exact hlong.trans (by simp)

/-- The bytes inside the frame, one a step. -/
theorem Receiving.run_inner (h : Receiving c seen u) (hl : c.params.legal = true)
    (hbs : ∀ b ∈ bs, b ≠ Config.sox ∧ b ≠ Config.eox) {ts : List Transaction} (hin : u.input = rxOf bs ++ ts) :
    ∃ v, runAll u = runAll v ∧ v.input = ts ∧ Receiving c (seen ++ kept c.params bs) v := by
  induction bs generalizing u seen with
  | nil => exact ⟨u, rfl, hin, by simpa [kept] using h⟩
  | cons b bs ih =>
    obtain ⟨⟨hsox, heox⟩, hrest⟩ := List.forall_mem_cons.mp hbs
    obtain ⟨w, hw, hwin, hrec⟩ := (h.with_pending (rxOf bs ++ ts)).step_inner hl hsox heox
    have hstep : runAll u = runAll w := runAll_cons (h.params_eq ▸ hl) hin hw hwin
    obtain ⟨v, hv, hvin, hrecv⟩ := ih hrec hrest hwin
    refine ⟨v, hstep.trans hv, hvin, ?_⟩
    rwa [← List.singleton_append (l := bs), kept_append, ← List.append_assoc]

/-- The terminator ends the frame by R65 or R68. -/
theorem Receiving.step_eox (h : Receiving c seen u) : execRxByte Config.eox (withInput [] u) = endOfFrame c seen := by
  cases h with
  | fits hs hb hroom hc =>
    rw [endOfFrame, if_pos hroom, ← hc]
    exact execRxByte_recv_eox hs hb
  | overlong hs hb hlong hc =>
    rw [endOfFrame, if_neg (Nat.not_lt.mpr hlong), ← hc, ← raiseDecodeError_eq_reported]
    exact execRxByte_discard_eox hs hb

/-- The rest of a frame, its terminator being the last transaction. -/
theorem Receiving.run_frame (h : Receiving c seen u) (hl : c.params.legal = true)
    (hbs : ∀ b ∈ bs, b ≠ Config.sox ∧ b ≠ Config.eox) (hin : u.input = rxOf bs ++ [.rx Config.eox]) :
    runAll u = endOfFrame c (seen ++ kept c.params bs) := by
  obtain ⟨v, hv, hvin, hrec⟩ := h.run_inner hl hbs hin
  calc runAll u = runAll v := hv
    _ = execRxByte Config.eox (withInput [] v) := runAll_last (hrec.params_eq ▸ hl) hvin
    _ = endOfFrame c (seen ++ kept c.params bs) := hrec.step_eox

/-- The first pending byte of a run. -/
theorem runAll_rx {ts : List Transaction} (hl : s.params.legal = true)
    (h : execRxByte b (withInput ts s) = .next u) (hin : u.input = ts) :
    runAll (withInput (.rx b :: ts) s) = runAll u :=
  runAll_cons hl rfl h hin

/-- A whole frame from IDLE, presented one byte a step. -/
theorem runAll_frame (hl : s.params.legal = true) (hs : s.frState = .idle)
    (hbs : ∀ b ∈ bs, b ≠ Config.sox ∧ b ≠ Config.eox) :
    runAll (withInput (rxOf ([Config.sox] ++ bs ++ [Config.eox])) s) =
      endOfFrame (closed (withInput [] s)) ([Config.sox] ++ kept s.params bs) := by
  have hmax := legal_bounds hl
  have hin : rxOf ([Config.sox] ++ bs ++ [Config.eox]) = .rx Config.sox :: (rxOf bs ++ [.rx Config.eox]) := by
    simp [rxOf]
  have hopen : execRxByte Config.sox (withInput (rxOf bs ++ [.rx Config.eox]) s) =
      .next (withInput (rxOf bs ++ [.rx Config.eox]) (opened s)) :=
    execRxByte_idle_sox (show 0 < s.params.maxFrameLen by omega) hs
  rw [hin, runAll_rx hl hopen rfl]
  exact ((receiving_opened hl).with_pending _).run_frame hl hbs rfl

end Receiving

/-- The delivery of a frame always goes on (R80). -/
theorem deliver_goes_on (f : List Byte) (s : State) : ∃ t, deliver f s = .next t := by
  rcases deliver_cases f s with ⟨-, e, -, -, h⟩ | ⟨g, -, h⟩ | ⟨r, -, h⟩ <;> exact ⟨_, h⟩

/-- A frame whose inner bytes are neither `F0` nor `F7` nor filtered, as a whole from IDLE. -/
theorem runAll_unfiltered_frame {s : State} {body : List Byte} (hl : s.params.legal = true) (hs : s.frState = .idle)
    (hbody : ∀ b ∈ body, b ≠ Config.sox ∧ b ≠ Config.eox ∧ (s.params.rtFilter = true → b.toNat < 0xF8)) :
    runAll (withInput (rxOf ([Config.sox] ++ body ++ [Config.eox])) s) =
      endOfFrame (closed (withInput [] s)) ([Config.sox] ++ body) := by
  have hkept : kept s.params body = body := kept_of_unfiltered fun b hb => (hbody b hb).2.2
  rw [runAll_frame hl hs fun b hb => ⟨(hbody b hb).1, (hbody b hb).2.1⟩, hkept]

/-- Settles O53: within the bound the end of the frame is its delivery. -/
theorem wholeFrameIsDelivered : Obligations.WholeFrameIsDelivered := by
  intro s body hl hs hbody hlen
  have hfits : ([0xF0#8] ++ body).length < s.params.maxFrameLen := by simp; omega
  have hrun : runAll (withInput (rxOf ([0xF0#8] ++ body ++ [0xF7#8])) s) =
      deliver ([0xF0#8] ++ body ++ [0xF7#8]) (closed (withInput [] s)) :=
    (runAll_unfiltered_frame hl hs hbody).trans (if_pos hfits)
  obtain ⟨t, ht⟩ := deliver_goes_on ([0xF0#8] ++ body ++ [0xF7#8]) (closed (withInput [] s))
  refine ⟨t, hrun.trans ht, fun k hk => ?_, fun r hr => ?_⟩
  · rw [← ht, deliver_of_ok (s := closed (withInput [] s)) hk]
  · rw [deliver_of_error (s := closed (withInput [] s)) hr] at ht
    cases ht
    rfl

/-- Settles O54: beyond the bound the end of the frame reports its first bytes. -/
theorem overlongFrameIsReported : Obligations.OverlongFrameIsReported := by
  intro s body hl hs hbody hlen
  have hlong : ¬ ([0xF0#8] ++ body).length < s.params.maxFrameLen := by simp; omega
  exact (runAll_unfiltered_frame hl hs hbody).trans (if_neg hlong)

end Sys2Proof.Proofs
end

section
/-! What a frame of each class does (R81 to R90, R143): the settled obligations of spec/41_rx_classifier.md that state
one class's result. -/

namespace Sys2Proof.Proofs

open Sys2Proof.Machine Sys2Proof.Safety Sys2Proof.Laws

/-- A frame of a class with an event dispatches it under the enable bit of the event's tag (R90). -/
theorem exec_of_eventOf {k : FrameClass} {e : EvRecord} (h : eventOf k = some e) (s : State) :
    exec k.toInstr s = .next (eventOutcome e.tag.index e s) := by
  cases k <;> cases h <;> rfl

/-- A struck pad's number is `d1 - 64`, which is never negative (R81). -/
theorem padDown_number {d : Byte} (h : 64 ≤ d.toNat) : d.setWidth 9 - 64#9 = BitVec.ofNat 9 (d.toNat - 64) := by
  rw [← BitVec.ofNat_sub_ofNat_of_le _ _ (by decide) h, BitVec.ofNat_toNat]

/-- Settles O41: each pad class dispatches its event, whose number is the rule's. -/
theorem padFrameResult : Obligations.PadFrameResult := by
  intro s d1 d2
  constructor <;> intro h
  · rw [← padDown_number h]
    exact exec_of_eventOf (k := .padDown d1 d2) rfl s
  · rw [BitVec.ofNat_toNat]
    exact exec_of_eventOf (k := .padUp d1 d2) rfl s

/-- Settles O42: both button classes dispatch the number `d1 + 16`, which 9 bits hold. -/
theorem buttonFrameResult : Obligations.ButtonFrameResult :=
  fun s d1 d2 => ⟨d1.setWidth 9 + 16#9, toNat_button d1,
    exec_of_eventOf (k := .buttonDown d1) rfl s, exec_of_eventOf (k := .buttonUp d1 d2) rfl s⟩

/-- Settles O43: a knob's index and an x coordinate are `d1` itself. -/
theorem knobAndXyFrameResult : Obligations.KnobAndXyFrameResult :=
  fun s d1 d2 => ⟨d1.setWidth 9, toNat_setWidth_nine d1,
    exec_of_eventOf (k := .knob d1 d2) rfl s, exec_of_eventOf (k := .xy d1 d2) rfl s⟩

/-- Settles O44: the two rotary events have no operand. -/
theorem rotaryFrameResult : Obligations.RotaryFrameResult :=
  fun s d1 d2 => ⟨exec_of_eventOf (k := .rotaryRight d1) rfl s, exec_of_eventOf (k := .rotaryLeft d1 d2) rfl s⟩

/-- An unknown class reports the whole frame (R89). -/
theorem exec_invalidUnknownClass (f : List Byte) (s : State) :
    exec (.invalidUnknownClass f) s = .next (reported ⟨.unknownClass, f⟩ s) :=
  congrArg Host.Outcome.next (raiseDecodeError_eq_reported .unknownClass f s)

/-- Settles O45: R143 has one branch for each INV_MODE, and neither reads the enable bits. -/
theorem unknownClassResult : Obligations.UnknownClassResult := by
  intro s f
  rw [exec_invalidUnknownClass]
  constructor <;> intro hm <;> simp only [reported, hm]

end Sys2Proof.Proofs
end

section
/-! The outcome of a frame (R92): what its terminator adds is a function of its bytes, CTRL, the parameters and FR_STATE,
the same in every state that agrees on these. -/

namespace Sys2Proof.Proofs

open Sys2Proof.Machine Sys2Proof.Safety Sys2Proof.Laws

/-- What the end of a frame leaves behind: the records it adds, and whether it sets DECODE_ERR. -/
structure FrameOutcome where
  added : List Output
  failed : Bool

/-- The state after a frame of this outcome. -/
def FrameOutcome.apply (o : FrameOutcome) (s : State) : State :=
  { s with output := s.output ++ o.added, decodeErr := s.decodeErr || o.failed }

/-- The outcome of an event under `CTRL.EN` (R90). -/
def dispatchOutcome (en : BitVec 8) (e : EvRecord) : FrameOutcome :=
  ⟨if en.getLsbD e.tag.index then [.evt (.ev e)] else [], false⟩

/-- The outcome of an Invalid record under `CTRL.INV_MODE` (R143). -/
def invalidOutcome : InvMode → InvRecord → FrameOutcome
  | .signal, r => ⟨[.err r], true⟩
  | .handler, r => ⟨[.evt (.inv r)], false⟩

/-- The outcome of a frame class under CTRL: its event, or the record of an unknown class (R81 to R89). -/
def classOutcome (en : BitVec 8) (m : InvMode) (k : FrameClass) (f : List Byte) : FrameOutcome :=
  match eventOf k with
  | some e => dispatchOutcome en e
  | none => invalidOutcome m ⟨.unknownClass, f⟩

/-- The outcome of the delivery of a frame under CTRL and the parameters (R80). -/
def deliveryOutcome (p : Params) (en : BitVec 8) (m : InvMode) (f : List Byte) : FrameOutcome :=
  match decodeFrame p f with
  | .ok k => classOutcome en m k f
  | .error r => invalidOutcome m ⟨r, f⟩

theorem dispatch_eq_apply (e : EvRecord) (s : State) : dispatch e s = (dispatchOutcome s.ctrlEn e).apply s := by
  rcases dispatch_cases e s with ⟨hen, h⟩ | ⟨hen, h⟩ <;> rw [h] <;>
    simp [FrameOutcome.apply, dispatchOutcome, hen]

theorem raiseDecodeError_eq_apply (r : InvReason) (raw : List Byte) (s : State) :
    raiseDecodeError r raw s = (invalidOutcome s.ctrlInvMode ⟨r, raw⟩).apply s := by
  rcases raiseDecodeError_cases r raw s with ⟨hm, h⟩ | ⟨hm, h⟩ <;> rw [h] <;>
    simp [FrameOutcome.apply, invalidOutcome, hm]

/-- The delivery of a frame has its outcome whatever else the state holds (R80, R92). -/
theorem deliver_eq_apply (f : List Byte) (s : State) :
    deliver f s = .next ((deliveryOutcome s.params s.ctrlEn s.ctrlInvMode f).apply s) := by
  unfold deliveryOutcome
  rcases deliver_cases f s with ⟨k, e, hk, he, h⟩ | ⟨g, hg, h⟩ | ⟨r, hr, h⟩
  · rw [h, hk, dispatch_eq_apply]
    simp only [classOutcome, he]
  · obtain ⟨rfl, -⟩ := decodeFrame_eq_unknown hg
    rw [h, hg, raiseDecodeError_eq_apply]
    rfl
  · rw [h, hr, raiseDecodeError_eq_apply]

/-- The outcome of the terminator that comes into a frame holding `bs`: a delivery (R65), or the report of an over-long
frame (R68). -/
def terminatorOutcome (p : Params) (en : BitVec 8) (m : InvMode) (st : FrState) (bs : List Byte) : FrameOutcome :=
  if st = .recv then deliveryOutcome p en m (bs ++ [Config.eox]) else invalidOutcome m ⟨.overflow, bs ++ [Config.eox]⟩

/-- The terminator closes the frame and has its outcome whatever else the state holds (R65, R68, R92). -/
theorem execRxByte_eox_eq_apply {s : State} {bs : List Byte} (hs : s.frState ≠ .idle) (hb : HoldsBytes s bs) :
    execRxByte Config.eox s =
      .next ((terminatorOutcome s.params s.ctrlEn s.ctrlInvMode s.frState bs).apply (closed s)) := by
  cases hst : s.frState with
  | idle => exact absurd hst hs
  | recv => exact (execRxByte_recv_eox hst hb).trans (deliver_eq_apply _ (closed s))
  | discard =>
    exact (execRxByte_discard_eox hst hb).trans (congrArg _ (raiseDecodeError_eq_apply _ _ (closed s)))

/-- Settles O46: the outcome of the terminator reads nothing in which the two states may differ. -/
theorem frameOutcomeIgnoresEarlierFrames : Obligations.FrameOutcomeIgnoresEarlierFrames := by
  intro s u bs hp hen hm hst hopen hs hu
  have hsx := execRxByte_eox_eq_apply hopen hs
  have hux := execRxByte_eox_eq_apply (hst ▸ hopen) hu
  rw [← hp, ← hen, ← hm, ← hst] at hux
  exact ⟨_, _, hsx, hux⟩

end Sys2Proof.Proofs
end

section
/-! The messages of fixed length that the block builds, fed back to RX (R93): their class byte is none of R43, and no
byte of their payload ends or restarts a frame. -/

namespace Sys2Proof.Proofs

open Sys2Proof.Machine Sys2Proof.Safety Sys2Proof.Laws

/-- The bytes are a message whose byte 5 is no class byte of R43, with bytes 6 and 7 before the terminator. -/
def NoEvent (bytes : List Byte) : Prop :=
  ∃ c d1 d2 rest, bytes = Config.preamble ++ c :: d1 :: d2 :: rest ++ [Config.eox] ∧ isKnownClass c = false

/-- A response that is a message is no event (R93). -/
def AnswersNoEvent (r : TxResponse) : Prop := ∀ bytes, r = .msg bytes → NoEvent bytes

theorem answersNoEvent_message {c : Byte} (d1 d2 : Byte) (rest : List Byte) (hc : isKnownClass c = false) :
    AnswersNoEvent (message (c :: d1 :: d2 :: rest)) := by
  intro bytes h
  cases h
  exact ⟨c, d1, d2, rest, rfl, hc⟩

/-- A rejection is no message (R101). -/
theorem answersNoEvent_orReject {x : Except RejectCode TxResponse} (h : ∀ r, x = .ok r → AnswersNoEvent r) :
    AnswersNoEvent (orReject x) := by
  cases x with
  | ok r => exact h r rfl
  | error c => exact nofun

theorem answersNoEvent_lightMessage (target state : Byte) : AnswersNoEvent (lightMessage target state) :=
  answersNoEvent_message _ _ _ (by decide)

theorem answersNoEvent_setLight (target state : Byte) : AnswersNoEvent (setLightResponse target state) := by
  refine answersNoEvent_orReject fun r hr => ?_
  split at hr
  · cases hr
  · split at hr
    · cases hr
    · cases hr; exact answersNoEvent_lightMessage _ _

theorem answersNoEvent_setLightBool (target : Byte) (on : Bool) : AnswersNoEvent (setLightBoolResponse target on) := by
  refine answersNoEvent_orReject fun r hr => ?_
  split at hr
  · cases hr
  · cases hr; exact answersNoEvent_lightMessage _ _

theorem answersNoEvent_flashLight (policy : FlashPolicy) (target : Byte) (dur : BitVec 16) :
    AnswersNoEvent (flashLightResponse policy target dur) := by
  refine answersNoEvent_orReject fun r hr => ?_
  split at hr
  · cases hr
  · split at hr
    · cases hr
    · cases hr; exact answersNoEvent_lightMessage _ _

theorem answersNoEvent_setLed (kind : TextKind) (t : TextField) (blink : Bool) :
    AnswersNoEvent (setLedResponse kind t blink) := by
  refine answersNoEvent_orReject fun r hr => ?_
  split at hr
  · cases hr
  · cases hr; exact answersNoEvent_message _ _ _ (by decide)

theorem answersNoEvent_setLightGroup (kind : TextKind) (t : TextField) (lights : BitVec 35) :
    AnswersNoEvent (setLightGroupResponse kind t lights) := by
  refine answersNoEvent_orReject fun r hr => ?_
  split at hr
  · cases hr
  · cases hr; exact answersNoEvent_message _ _ _ (by decide)

/-- The least length that decodes is at most 9 (R5). -/
theorem minDecodeLen_le_nine {p : Params} (h : p.legal = true) : p.minDecodeLen ≤ 9 := by
  simp only [Params.legal, Bool.and_eq_true, Bool.or_eq_true, beq_iff_eq] at h
  omega

/-- A frame that is long enough and has the preamble passes validation (R72). -/
theorem validate_eq_none {p : Params} {f : List Byte} (hlen : p.minDecodeLen ≤ f.length) (hpre : preambleOk f = true) :
    validate p f = none := by
  simp [validate, lengthOk, hlen, hpre]

/-- A message with a payload of three bytes or more passes validation on every legal instance (R69, R70). -/
theorem validate_message {p : Params} {payload : List Byte} (hl : p.legal = true) (h : 3 ≤ payload.length) :
    validate p (Config.preamble ++ payload ++ [Config.eox]) = none := by
  have hmin := minDecodeLen_le_nine hl
  have hlen : (Config.preamble ++ payload ++ [Config.eox]).length = payload.length + 6 := by simp [Config.preamble]
  refine validate_eq_none (by omega) ?_
  simp [preambleOk, Config.preamble]

/-- Such a message decodes to the unknown class (R89). -/
theorem decodeFrame_of_noEvent {p : Params} {bytes : List Byte} (hl : p.legal = true) (h : NoEvent bytes) :
    decodeFrame p bytes = .ok (.unknown bytes) := by
  obtain ⟨c, d1, d2, rest, rfl, hc⟩ := h
  have hv := validate_message (payload := c :: d1 :: d2 :: rest) hl (by simp)
  rw [decodeFrame_of_bytes hv rfl rfl rfl, classify_unknown _ _ _ hc]

/-- A 7-bit byte neither ends nor restarts a frame, and is not filtered (R61, R65, R66). -/
theorem inner_of_sevenBit {b : Byte} (h : b.toNat ≤ 0x7F) : b ≠ 0xF0#8 ∧ b ≠ 0xF7#8 ∧ b.toNat < 0xF8 := by
  refine ⟨?_, ?_, by omega⟩ <;> rintro rfl <;> exact absurd h (by decide)

/-- A message of the block that fits comes back to the framer as one whole frame (R49, R62 to R65). -/
theorem runAll_message {s : State} {bytes : List Byte} {k : FrameClass} (hl : s.params.legal = true)
    (hs : s.frState = .idle) (hok : TxOk (.msg bytes)) (hlen : bytes.length ≤ s.params.maxFrameLen)
    (hk : decodeFrame s.params bytes = .ok k) :
    runAll (withInput (rxOf bytes) s) = exec k.toInstr (closed (withInput [] s)) := by
  obtain ⟨payload, rfl, -, h7⟩ := hok
  have hhead : ∀ b ∈ [0x42#8, 0x40#8, 0x6E#8, 0x08#8], b.toNat ≤ 0x7F := by decide
  have hbody : ∀ b ∈ [0x42#8, 0x40#8, 0x6E#8, 0x08#8] ++ payload,
      b ≠ 0xF0#8 ∧ b ≠ 0xF7#8 ∧ (s.params.rtFilter = true → b.toNat < 0xF8) := by
    intro b hb
    obtain ⟨hsox, heox, hrt⟩ := inner_of_sevenBit ((List.mem_append.mp hb).elim (hhead b) (h7 b))
    exact ⟨hsox, heox, fun _ => hrt⟩
  have hfits : ([0x42#8, 0x40#8, 0x6E#8, 0x08#8] ++ payload).length + 2 ≤ s.params.maxFrameLen := by
    simp [Config.preamble] at hlen ⊢; omega
  obtain ⟨t, hrun, hvalid, -⟩ := wholeFrameIsDelivered s _ hl hs hbody hfits
  exact hrun.trans (hvalid k hk).symm

/-- The light, LED and light-group commands answer messages that are no events (R93). -/
theorem exists_response_answersNoEvent (p : Params) {i : Instr}
    (h : (∃ target state, i = .setLight target state) ∨ (∃ target on, i = .setLightBool target on) ∨
      (∃ target dur, i = .flashLight target dur) ∨ (∃ k x blink, i = .setLed k x blink) ∨
      (∃ k x lights, i = .setLightGroup k x lights)) :
    ∃ r, commandResponse p i = some r ∧ AnswersNoEvent r := by
  rcases h with ⟨target, state, rfl⟩ | ⟨target, on, rfl⟩ | ⟨target, dur, rfl⟩ | ⟨k, x, blink, rfl⟩ |
    ⟨k, x, lights, rfl⟩
  · exact ⟨_, rfl, answersNoEvent_setLight _ _⟩
  · exact ⟨_, rfl, answersNoEvent_setLightBool _ _⟩
  · exact ⟨_, rfl, answersNoEvent_flashLight _ _ _⟩
  · exact ⟨_, rfl, answersNoEvent_setLed _ _ _⟩
  · exact ⟨_, rfl, answersNoEvent_setLightGroup _ _ _⟩

/-- Settles O55: the response is a 7-bit message of unknown class, which comes back as one whole frame. -/
theorem lightAndLedMessagesAreUnknownClass : Obligations.LightAndLedMessagesAreUnknownClass := by
  intro s t i bytes hl hs hi hx hout hlen
  obtain ⟨r, hr, hno⟩ := exists_response_answersNoEvent s.params hi
  rw [exec_of_commandResponse hr] at hx
  cases hx
  obtain rfl : r = .msg bytes := by simpa using hout
  have hk : decodeFrame s.params bytes = .ok (.unknown bytes) := decodeFrame_of_noEvent hl (hno bytes rfl)
  rw [runAll_message (s := emit (.txr (.msg bytes)) s) hl hs (txOk_commandResponse hr) hlen hk]
  exact exec_invalidUnknownClass bytes _

end Sys2Proof.Proofs
end

section
/-! The text of the commands that carry one (R103): its length check, its code points, and the settled obligations of
ENCODE_TEXT and SET_LED (R110, R111). -/

namespace Sys2Proof.Proofs

open Sys2Proof.Machine Sys2Proof.Safety Sys2Proof.Laws

/-! ### The text operand -/

/-- The three code points of a text as bytes, character 0 first. -/
def codePointBytes (t : TextField) : TextBytes where
  t0 := BitVec.ofNat 8 t.c0.toNat
  t1 := BitVec.ofNat 8 t.c1.toNat
  t2 := BitVec.ofNat 8 t.c2.toNat

theorem slotByte_of_le {c : BitVec 21} (h : c.toNat ≤ 0x7F) : slotByte c = .ok (BitVec.ofNat 8 c.toNat) := by
  simpa only [BitVec.ofNat_toNat, BitVec.setWidth_eq] using slotByte_ofNat h

theorem slotByte_of_gt {c : BitVec 21} (h : 0x7F < c.toNat) : slotByte c = .error .badCodePoint := if_pos h

/-- An accepted slot keeps its code point. -/
theorem toNat_of_slotByte {c : BitVec 21} {b : Byte} (h : slotByte c = .ok b) : c.toNat = b.toNat := by
  by_cases hc : c.toNat ≤ 0x7F
  · cases (slotByte_of_le hc).symm.trans h
    rw [BitVec.toNat_ofNat]; omega
  · cases (slotByte_of_gt (Nat.lt_of_not_le hc)).symm.trans h

theorem slotByte_injective {c c' : BitVec 21} {b : Byte} (h : slotByte c = .ok b) (h' : slotByte c' = .ok b) :
    c = c' :=
  BitVec.eq_of_toNat_eq ((toNat_of_slotByte h).trans (toNat_of_slotByte h').symm)

/-- Only a string has its length checked. -/
theorem textBytes_of_tlen {kind : TextKind} {t : TextField} (hk : kind = .string) (h : t.tlen ≠ 3#8) :
    textBytes (isString kind) t = .error .badTextLen := by
  simp [textBytes, isString, hk, h]

theorem lengthCheck_eq_false {kind : TextKind} {t : TextField} (hlen : kind = .string → t.tlen = 3#8) :
    (isString kind && t.tlen != 3#8) = false := by
  cases kind with
  | string => simp [hlen rfl]
  | precomputed => rfl

theorem textBytes_of_codePoints {kind : TextKind} {t : TextField} (hlen : kind = .string → t.tlen = 3#8)
    (h0 : t.c0.toNat ≤ 0x7F) (h1 : t.c1.toNat ≤ 0x7F) (h2 : t.c2.toNat ≤ 0x7F) :
    textBytes (isString kind) t = .ok (codePointBytes t) := by
  rw [textBytes, lengthCheck_eq_false hlen, slotByte_of_le h0, slotByte_of_le h1, slotByte_of_le h2]
  rfl

/-- Whichever slot is the first to fail, the code is the same. -/
theorem textBytes_of_badCodePoint {kind : TextKind} {t : TextField} (hlen : kind = .string → t.tlen = 3#8)
    (h : 0x7F < t.c0.toNat ∨ 0x7F < t.c1.toNat ∨ 0x7F < t.c2.toNat) :
    textBytes (isString kind) t = .error .badCodePoint := by
  rw [textBytes, lengthCheck_eq_false hlen]
  by_cases h0 : t.c0.toNat ≤ 0x7F
  · rw [slotByte_of_le h0]
    by_cases h1 : t.c1.toNat ≤ 0x7F
    · rw [slotByte_of_le h1, slotByte_of_gt (show 0x7F < t.c2.toNat by omega)]; rfl
    · rw [slotByte_of_gt (Nat.lt_of_not_le h1)]; rfl
  · rw [slotByte_of_gt (Nat.lt_of_not_le h0)]; rfl

/-- What an accepted text says of its length and its slots. -/
theorem slots_of_textBytes {kind : TextKind} {t : TextField} {x : TextBytes}
    (h : textBytes (isString kind) t = .ok x) :
    (kind = .string → t.tlen = 3#8) ∧ slotByte t.c0 = .ok x.t0 ∧ slotByte t.c1 = .ok x.t1 ∧
      slotByte t.c2 = .ok x.t2 := by
  have hlen : kind = .string → t.tlen = 3#8 := fun hk =>
    not_not.mp fun hne => by cases (textBytes_of_tlen hk hne).symm.trans h
  unfold textBytes at h
  split at h
  · cases h
  · split at h
    · next h0 h1 h2 => cases h; exact ⟨hlen, h0, h1, h2⟩
    all_goals cases h

/-! ### ENCODE_TEXT (R110) -/

theorem encodeTextResponse_of_error {t : TextField} {c : RejectCode} (h : textBytes true t = .error c) :
    encodeTextResponse t = .reject c := by
  rw [encodeTextResponse, h]; rfl

/-- The answer is bytes exactly where the text is accepted. -/
theorem encodeTextResponse_eq_bytes3_iff {t : TextField} {x y z : Byte} :
    encodeTextResponse t = .bytes3 x y z ↔ textBytes true t = .ok ⟨x, y, z⟩ := by
  rw [encodeTextResponse]
  cases textBytes true t with
  | ok b => cases b; simp [orReject]
  | error c => simp [orReject]

/-- Settles O11: the three outcomes of the text checks. -/
theorem encodeTextResult : Obligations.EncodeTextResult := by
  refine fun s t => ⟨fun hlen => ?length, fun hlen hbad => ?codePoint, fun hlen h0 h1 h2 => ?accepted⟩ <;>
    refine exec_of_commandResponse (congrArg some ?_)
  case length => exact encodeTextResponse_of_tlen hlen
  case codePoint => exact encodeTextResponse_of_error (textBytes_of_badCodePoint (kind := .string) (fun _ => hlen) hbad)
  case accepted => exact encodeTextResponse_of_slots hlen (slotByte_of_le h0) (slotByte_of_le h1) (slotByte_of_le h2)

/-- A text that is answered with bytes has length 3 and slots that pass. -/
theorem slots_of_exec_encodeText {s u : State} {t : TextField} {x y z : Byte} (hx : exec (.encodeText t) s = .next u)
    (hout : u.output = s.output ++ [.txr (.bytes3 x y z)]) :
    t.tlen = 3#8 ∧ slotByte t.c0 = .ok x ∧ slotByte t.c1 = .ok y ∧ slotByte t.c2 = .ok z := by
  rw [exec_of_commandResponse (r := encodeTextResponse t) rfl] at hx
  cases hx
  have hr : encodeTextResponse t = .bytes3 x y z := by simpa using hout
  obtain ⟨hlen, hslots⟩ := slots_of_textBytes (kind := .string) (encodeTextResponse_eq_bytes3_iff.mp hr)
  exact ⟨hlen rfl, hslots⟩

/-- Settles O12: the length is 3 in both texts, and each slot is injective. -/
theorem encodeTextInjective : Obligations.EncodeTextInjective := by
  intro s u v ⟨tlen, c0, c1, c2⟩ ⟨tlen', c0', c1', c2'⟩ x y z hu hv hou hov
  obtain ⟨hlen, h0, h1, h2⟩ := slots_of_exec_encodeText hu hou
  obtain ⟨hlen', h0', h1', h2'⟩ := slots_of_exec_encodeText hv hov
  cases hlen.trans hlen'.symm
  cases slotByte_injective h0 h0'
  cases slotByte_injective h1 h1'
  cases slotByte_injective h2 h2'
  rfl

/-! ### SET_LED (R111) -/

theorem setLedResponse_of_error {kind : TextKind} {t : TextField} {blink : Bool} {c : RejectCode}
    (h : textBytes (isString kind) t = .error c) : setLedResponse kind t blink = .reject c := by
  rw [setLedResponse, h]; rfl

theorem setLedResponse_of_ok {kind : TextKind} {t : TextField} {blink : Bool} {x : TextBytes}
    (h : textBytes (isString kind) t = .ok x) :
    setLedResponse kind t blink = message [0x22#8, 0x04#8, ledState blink, x.t0, x.t1, x.t2] := by
  rw [setLedResponse, h]; rfl

/-- Settles O13: the three outcomes of the text checks. -/
theorem setLedResult : Obligations.SetLedResult := by
  refine fun s kind t blink => ⟨fun hk hlen => ?length, fun hlen hbad => ?codePoint, fun hlen h0 h1 h2 => ?accepted⟩ <;>
    refine exec_of_commandResponse (congrArg some ?_)
  case length => exact setLedResponse_of_error (textBytes_of_tlen hk hlen)
  case codePoint => exact setLedResponse_of_error (textBytes_of_badCodePoint hlen hbad)
  case accepted => exact setLedResponse_of_ok (textBytes_of_codePoints hlen h0 h1 h2)

end Sys2Proof.Proofs
end

section
/-! The single-light commands (R112 to R114): the checks of target, state and duration, the state byte of a flash, and
the settled obligations of SET_LIGHT, SET_LIGHT_BOOL and FLASH_LIGHT. -/

namespace Sys2Proof.Proofs

open Sys2Proof.Machine Sys2Proof.Safety Sys2Proof.Laws

/-! ### The checks of target and state -/

theorem checkTarget_of_le {t : Byte} (h : t.toNat ≤ 0x7F) : checkTarget t = .ok () := if_neg (Nat.not_lt.mpr h)

theorem checkTarget_of_gt {t : Byte} (h : 0x7F < t.toNat) : checkTarget t = .error .badTarget := if_pos h

/-- The legal light states by their numbers (R47). -/
theorem isLightState_iff (v : Byte) :
    isLightState v = true ↔
      v.toNat = 0x00 ∨ v.toNat = 0x20 ∨ (0x40 ≤ v.toNat ∧ v.toNat ≤ 0x5E) ∨ v.toNat = 0x60 := by
  simp [isLightState, ← BitVec.toNat_inj, or_assoc]

/-- On and off are light states (R47). -/
theorem isLightState_boolState (on : Bool) : isLightState (boolState on) = true := by cases on <;> decide

/-! ### SET_LIGHT and SET_LIGHT_BOOL (R112, R113) -/

theorem setLightResponse_of_badTarget {target : Byte} (state : Byte) (h : 0x7F < target.toNat) :
    setLightResponse target state = .reject .badTarget := by
  rw [setLightResponse, checkTarget_of_gt h]; rfl

/-- With the target accepted, the state check decides. -/
theorem setLightResponse_of_target {target : Byte} (state : Byte) (h : target.toNat ≤ 0x7F) :
    setLightResponse target state = if isLightState state then lightMessage target state else .reject .badState := by
  rw [setLightResponse, checkTarget_of_le h, checkState]
  cases isLightState state <;> rfl

/-- The state of SET_LIGHT_BOOL needs no check: it is SET_LIGHT of that state, accepted or not. -/
theorem setLightBoolResponse_eq_setLightResponse (target : Byte) (on : Bool) :
    setLightBoolResponse target on = setLightResponse target (boolState on) := by
  rw [setLightBoolResponse, setLightResponse, checkState, isLightState_boolState]
  rfl

/-- Settles O14: the target is checked first, then the state. -/
theorem setLightResult : Obligations.SetLightResult := by
  refine fun s target state => ⟨fun ht => ?target, fun ht hs => ?state, fun ht hs => ?accepted⟩ <;>
    refine exec_of_commandResponse (congrArg some ?_)
  case target => exact setLightResponse_of_badTarget state ht
  case state => exact (setLightResponse_of_target state ht).trans (if_neg (mt (isLightState_iff state).mp hs))
  case accepted => exact (setLightResponse_of_target state ht).trans (if_pos ((isLightState_iff state).mpr hs))

/-- Settles O15: SET_LIGHT_BOOL is SET_LIGHT of a state that passes. -/
theorem setLightBoolResult : Obligations.SetLightBoolResult := by
  intro s target on
  have heq := setLightBoolResponse_eq_setLightResponse target on
  refine ⟨fun ht => ?target, fun ht => ?accepted, ?same⟩
  case target =>
    exact exec_of_commandResponse (congrArg some (heq.trans (setLightResponse_of_badTarget _ ht)))
  case accepted =>
    exact exec_of_commandResponse (congrArg some
      (heq.trans ((setLightResponse_of_target _ ht).trans (if_pos (isLightState_boolState on)))))
  case same =>
    exact (exec_of_commandResponse (i := .setLightBool target on) (congrArg some heq)).trans
      (exec_of_commandResponse rfl).symm

/-! ### The duration of a flash (R114) -/

theorem policedDuration_of_range {dur : BitVec 16} (h : dur.toInt < 0 ∨ 16384 < dur.toInt) :
    policedDuration .reject dur = .error .durationRange := if_pos h

/-- What the policy lets pass is the duration of R114. -/
theorem policedDuration_eq_flashDuration {policy : FlashPolicy} {dur : BitVec 16}
    (h : policy = .reject → 0 ≤ dur.toInt ∧ dur.toInt ≤ 16384) :
    policedDuration policy dur = .ok (flashDuration policy dur) := by
  cases policy with
  | reject => have := h rfl; exact if_neg (by omega)
  | clamp =>
    simp only [policedDuration, flashDuration, true_and, Except.ok.injEq]
    omega
  | literal => rfl

/-- Under REJECT and CLAMP a duration that passes is in [0, 1]. -/
theorem policedDuration_unit {policy : FlashPolicy} {dur : BitVec 16} {v : Int} (hp : policy ≠ .literal)
    (h : policedDuration policy dur = .ok v) : 0 ≤ v ∧ v ≤ 16384 := by
  cases policy with
  | reject =>
    simp only [policedDuration] at h
    split at h
    · cases h
    · cases h; omega
  | clamp => cases h; omega
  | literal => exact absurd rfl hp

/-- The floor of R114 is the one integer between its two bounds. -/
theorem flashState_of_floor {v k : Int} (hlo : 16384 * k ≤ 30 * v) (hhi : 30 * v < 16384 * (k + 1)) :
    flashState v = BitVec.ofInt 8 (0x40 + k) := by
  rw [flashState, show 30 * v / 16384 = k by omega]

/-- The state byte does not wrap: `30 × v / 2^14` lies from -60 to 59. -/
theorem toNat_flashState {v : Int} (h : -32768 ≤ v ∧ v ≤ 32767) :
    ((flashState v).toNat : Int) = 0x40 + 30 * v / 16384 := by
  have hq : -60 ≤ 30 * v / 16384 ∧ 30 * v / 16384 ≤ 59 := by omega
  rw [flashState, BitVec.toNat_ofInt]
  omega

/-! ### FLASH_LIGHT (R114) -/

theorem flashLightResponse_of_badTarget {target : Byte} (policy : FlashPolicy) (dur : BitVec 16)
    (h : 0x7F < target.toNat) : flashLightResponse policy target dur = .reject .badTarget := by
  rw [flashLightResponse, checkTarget_of_gt h]; rfl

theorem flashLightResponse_of_range {target : Byte} {policy : FlashPolicy} {dur : BitVec 16}
    (ht : target.toNat ≤ 0x7F) (hp : policy = .reject) (hd : dur.toInt < 0 ∨ 16384 < dur.toInt) :
    flashLightResponse policy target dur = .reject .durationRange := by
  rw [flashLightResponse, checkTarget_of_le ht, hp, policedDuration_of_range hd]; rfl

theorem flashLightResponse_of_ok {target : Byte} {policy : FlashPolicy} {dur : BitVec 16} {v : Int}
    (ht : target.toNat ≤ 0x7F) (hv : policedDuration policy dur = .ok v) :
    flashLightResponse policy target dur = lightMessage target (flashState v) := by
  rw [flashLightResponse, checkTarget_of_le ht, hv]; rfl

/-- A flash that is answered with a message is a single-light message with the state of a duration that passed. -/
theorem flashLightResponse_msg {target : Byte} {policy : FlashPolicy} {dur : BitVec 16} {bytes : List Byte}
    (h : flashLightResponse policy target dur = .msg bytes) :
    ∃ v, policedDuration policy dur = .ok v ∧ .msg bytes = lightMessage target (flashState v) := by
  by_cases ht : target.toNat ≤ 0x7F
  · cases hv : policedDuration policy dur with
    | ok v => exact ⟨v, rfl, h.symm.trans (flashLightResponse_of_ok ht hv)⟩
    | error c => rw [flashLightResponse, checkTarget_of_le ht, hv] at h; cases h
  · cases (flashLightResponse_of_badTarget policy dur (Nat.lt_of_not_le ht)).symm.trans h

/-- Settles O16: the target is checked first, then the duration, whose floor is the state. -/
theorem flashLightResult : Obligations.FlashLightResult := by
  refine fun s target dur => ⟨fun ht => ?target, fun ht hp hd => ?range, fun ht hd k hlo hhi => ?accepted⟩ <;>
    refine exec_of_commandResponse (congrArg some ?_)
  case target => exact flashLightResponse_of_badTarget _ dur ht
  case range => exact flashLightResponse_of_range ht hp hd
  case accepted =>
    rw [flashLightResponse_of_ok ht (policedDuration_eq_flashDuration hd), flashState_of_floor hlo hhi]
    rfl

/-- Settles O17: byte 7 is the state of a duration that passed the policy. -/
theorem flashStateByteRange : Obligations.FlashStateByteRange := by
  intro s t target dur bytes hx hout
  rw [exec_of_commandResponse (r := flashLightResponse s.params.flashPolicy target dur) rfl] at hx
  cases hx
  have hr : flashLightResponse s.params.flashPolicy target dur = .msg bytes := by simpa using hout
  obtain ⟨v, hv, hmsg⟩ := flashLightResponse_msg hr
  cases hmsg
  have hrange := policedDuration_range hv
  have hstate := toNat_flashState hrange
  refine ⟨flashState v, rfl, fun hp => ?_, fun _ => by omega⟩
  have hunit := policedDuration_unit hp hv
  omega

end Sys2Proof.Proofs
end

section
/-! The light group (R115, R116): the bits of the mask, and the settled obligations of SET_LIGHT_GROUP. -/

namespace Sys2Proof.Proofs

open Sys2Proof.Machine Sys2Proof.Safety Sys2Proof.Laws

/-! ### The mask (R115, R48) -/

theorem getLsbD_maskByte (lights : BitVec 35) (k j : Nat) :
    (maskByte lights k).getLsbD j = (decide (j < 7) && lights.getLsbD (7 * k + j)) := by
  simp only [maskByte, BitVec.getLsbD_setWidth, BitVec.getLsbD_extractLsb']
  by_cases hj : j < 7
  · simp only [hj, show j < 8 by omega, decide_true, Bool.true_and]
  · simp only [hj, decide_false, Bool.false_and, Bool.and_false]

theorem getD_packLights (lights : BitVec 35) {k : Nat} (hk : k < 5) :
    (packLights lights).getD k 0#8 = maskByte lights k := by
  have hpack : packLights lights = (List.range 5).map (maskByte lights) := rfl
  simp [hpack, List.getD, hk]

/-- Among the bits of the mask, light `i` is bit `i mod 7` of byte `i div 7`. -/
theorem light_at_iff {i k j : Nat} (hj : j < 7) : i = 7 * k + j ↔ k = i / 7 ∧ j = i % 7 := by omega

/-- Settles O20: the raised light is found at its own place in the mask and nowhere else. -/
theorem lightIndexOwnsOneMaskBit : Obligations.LightIndexOwnsOneMaskBit := by
  intro lights i k j hi hk hj
  rw [getD_packLights _ hk, getD_packLights _ hk, getLsbD_maskByte, getLsbD_maskByte, BitVec.getLsbD_or,
    BitVec.getLsbD_ofNat, Nat.testBit_two_pow]
  by_cases hj7 : j < 7
  · have hin : 7 * k + j < 35 := by omega
    have hplace : decide (i = 7 * k + j) = (k == i / 7 && j == i % 7) := by
      rw [Bool.eq_iff_iff]; simpa using light_at_iff hj7
    simp only [hj7, hin, hplace, decide_true, Bool.true_and]
  · have hne : j ≠ i % 7 := by omega
    simp [hj7, hne]

/-! ### SET_LIGHT_GROUP (R116) -/

theorem setLightGroupResponse_of_error {kind : TextKind} {t : TextField} {lights : BitVec 35} {c : RejectCode}
    (h : textBytes (isString kind) t = .error c) : setLightGroupResponse kind t lights = .reject c := by
  rw [setLightGroupResponse, h]; rfl

theorem setLightGroupResponse_of_ok {kind : TextKind} {t : TextField} {lights : BitVec 35} {x : TextBytes}
    (h : textBytes (isString kind) t = .ok x) :
    setLightGroupResponse kind t lights =
      message ([0x3F#8, 0x0A#8, 0x01#8] ++ packLights lights ++ [0x00#8] ++ [x.t2, x.t1, x.t0]) := by
  rw [setLightGroupResponse, h]; rfl

/-- Settles O19: the three outcomes of the text checks; the mask is `packLights`. -/
theorem setLightGroupResult : Obligations.SetLightGroupResult := by
  refine fun s kind t lights => ⟨fun hk hlen => ?length, fun hlen hbad => ?codePoint, fun hlen h0 h1 h2 =>
    ⟨packLights lights, rfl, fun k j hk hj => ?light, fun k hk => ?top, ?accepted⟩⟩
  case length =>
    exact exec_of_commandResponse (congrArg some (setLightGroupResponse_of_error (textBytes_of_tlen hk hlen)))
  case codePoint =>
    exact exec_of_commandResponse (congrArg some
      (setLightGroupResponse_of_error (textBytes_of_badCodePoint hlen hbad)))
  case light => rw [getD_packLights lights hk, getLsbD_maskByte, decide_eq_true hj, Bool.true_and]
  case top => rw [getD_packLights lights hk, getLsbD_maskByte]; rfl
  case accepted =>
    exact exec_of_commandResponse (congrArg some
      (setLightGroupResponse_of_ok (textBytes_of_codePoints hlen h0 h1 h2)))

end Sys2Proof.Proofs
end

section
/-! The commands without operands (R104 to R109, R117): the settled obligations of the fixed sequences and of the
reserved operation codes. -/

namespace Sys2Proof.Proofs

open Sys2Proof.Machine Sys2Proof.Safety Sys2Proof.Laws

/-- Settles O9: each command's response is its sequence. -/
theorem fixedCommandsAnswerTheirSequence : Obligations.FixedCommandsAnswerTheirSequence :=
  fun _ => ⟨exec_of_commandResponse rfl, exec_of_commandResponse rfl, exec_of_commandResponse rfl,
    exec_of_commandResponse rfl, exec_of_commandResponse rfl⟩

/-- The first byte of the payload is byte 5 of the sequence. -/
theorem seqOf_getElem?_five (head : Byte) (rest : List (BitVec 7)) : (Config.seqOf head rest)[5]? = some head := rfl

/-- Each fixed sequence is the response of a fixed command. -/
theorem exists_fixedCommand {q : List Byte} (p : Params)
    (hq : q ∈ [Config.seqNativeOn, Config.seqNativeOff, Config.seqEnableOutput, Config.seqInit, Config.seqTest]) :
    ∃ i, commandResponse p i = some (.msg q) := by
  simp only [List.mem_cons, List.not_mem_nil, or_false] at hq
  rcases hq with rfl | rfl | rfl | rfl | rfl
  · exact ⟨.nativeModeOn, rfl⟩
  · exact ⟨.nativeModeOff, rfl⟩
  · exact ⟨.enableOutput, rfl⟩
  · exact ⟨.init, rfl⟩
  · exact ⟨.test, rfl⟩

/-- Settles O10: the sequences are responses, whose form is known, and byte 5 is the head of the payload. -/
theorem fixedSequencesHaveTheirForm : Obligations.FixedSequencesHaveTheirForm := by
  refine ⟨fun q hq => ?form, seqOf_getElem?_five _ _, seqOf_getElem?_five _ _, seqOf_getElem?_five _ _⟩
  obtain ⟨i, hi⟩ := exists_fixedCommand {} hq
  obtain ⟨payload, rfl, hne, h7⟩ := txOk_commandResponse hi
  exact ⟨payload, rfl, List.length_pos_iff.mpr hne, h7⟩

/-- Settles O21: the five codes have one response, a rejection. -/
theorem reservedOpsAreRejected : Obligations.ReservedOpsAreRejected := by
  intro s i hi
  refine exec_of_commandResponse (r := .reject .illegalOp) ?_
  simp only [List.mem_cons, List.not_mem_nil, or_false] at hi
  rcases hi with rfl | rfl | rfl | rfl | rfl <;> rfl

end Sys2Proof.Proofs
end

section
/-! The CSR transactions (R130 to R134): what each address reads, what a write to it changes, and what no CSR transaction
touches. -/

namespace Sys2Proof.Proofs

open Sys2Proof.Machine Sys2Proof.Laws

/-! ### The rule of each access -/

/-- A CSR_READ returns the value of the register (R130). -/
theorem exec_csrRead_of_value {a : BitVec 4} {s : State} {v : BitVec 32} (h : csrValue a s = v) :
    exec (.csrRead a) s = .next (emit (.csr v) s) := h ▸ rfl

/-- A CSR_WRITE goes on with the register written (R131 to R133). -/
theorem exec_csrWrite_of_eq {a : BitVec 4} {d : BitVec 32} {s t : State} (h : writeCsr a d s = t) :
    exec (.csrWrite a d) s = .next t := h ▸ rfl

theorem csrValue_ctrl (s : State) : csrValue 0#4 s = ctrlWord s := rfl

theorem writeCsr_ctrl (d : BitVec 32) (s : State) : writeCsr 0#4 d s = writeCtrl d s := rfl

theorem writeCsr_status (d : BitVec 32) (s : State) : writeCsr 1#4 d s = writeStatus d s := rfl

/-- The addresses from 2 on are neither CTRL nor STATUS (R133). -/
theorem unmapped_ne {a : BitVec 4} (h : 2 ≤ a.toNat) : a ≠ 0#4 ∧ a ≠ 1#4 := by
  constructor <;> rintro rfl <;> exact absurd h (by decide)

theorem csrValue_unmapped {a : BitVec 4} (h : 2 ≤ a.toNat) (s : State) : csrValue a s = 0#32 := by
  obtain ⟨h0, h1⟩ := unmapped_ne h
  rw [csrValue, if_neg h0, if_neg h1]

theorem writeCsr_unmapped {a : BitVec 4} (h : 2 ≤ a.toNat) (d : BitVec 32) (s : State) : writeCsr a d s = s := by
  obtain ⟨h0, h1⟩ := unmapped_ne h
  rw [writeCsr, if_neg h0, if_neg h1]

/-! ### The two words (R16, R19) -/

/-- A one-bit field, widened, is 1 or 0. -/
theorem setWidth_ofBool_eq_ite (b : Bool) : (BitVec.ofBool b).setWidth 32 = if b then 1#32 else 0#32 := by
  cases b <;> rfl

/-- CTRL is its two fields at their positions (R16). -/
theorem ctrlWord_eq_shifts (s : State) :
    ctrlWord s = (if invModeBit s.ctrlInvMode then 1#32 else 0#32) <<< 8 ||| s.ctrlEn.setWidth 32 := by
  rw [ctrlWord, BitVec.setWidth_append_eq_shiftLeft_setWidth_or, setWidth_ofBool_eq_ite]

/-- STATUS is its five fields at their positions, over the reserved bits 15:5, which are 0 (R19). -/
theorem statusWord_eq_shifts (s : State) :
    statusWord s = s.frLen.setWidth 32 <<< 16 ||| (frStateBits s.frState).setWidth 32 <<< 3 |||
      (if s.abort then 1#32 else 0#32) <<< 2 ||| (if s.overflow then 1#32 else 0#32) <<< 1 |||
      (if s.decodeErr then 1#32 else 0#32) := by
  rw [statusWord]
  iterate 5 rw [BitVec.setWidth_append_eq_shiftLeft_setWidth_or]
  simp only [BitVec.shiftLeft_or_distrib, ← BitVec.shiftLeft_add, setWidth_ofBool_eq_ite, BitVec.setWidth_zero,
    BitVec.or_zero, Nat.reduceAdd]

/-- Settles O24: the value at each address is a word made of its fields. -/
theorem csrReadReturnsTheRegister : Obligations.CsrReadReturnsTheRegister := by
  refine fun s a => exec_csrRead_of_value ?_
  refine ite_congr rfl (fun _ => ?ctrl) (fun _ => ite_congr rfl (fun _ => ?status) (fun _ => rfl))
  case ctrl => rw [ctrlWord_eq_shifts]; cases s.ctrlInvMode <;> rfl
  case status => rw [statusWord_eq_shifts]; cases s.frState <;> rfl

/-! ### Writes to CTRL and STATUS (R131, R132) -/

theorem invModeBit_invModeOf (b : Bool) : invModeBit (invModeOf b) = b := by cases b <;> rfl

/-- A bit of a word over all the bits below it. -/
theorem ofBool_getLsbD_append_extractLsb' {n : Nat} (d : BitVec n) (k : Nat) :
    BitVec.ofBool (d.getLsbD k) ++ d.extractLsb' 0 k = d.setWidth (1 + k) := by
  ext i hi
  rw [BitVec.getElem_append, BitVec.getElem_setWidth]
  split
  · simp
  · next hk =>
    obtain rfl : i = k := by omega
    simp

/-- CTRL holds the nine low bits of the word written to it (R131). -/
theorem ctrlWord_writeCtrl (d : BitVec 32) (s : State) : ctrlWord (writeCtrl d s) = d &&& 0x1FF#32 := by
  calc ctrlWord (writeCtrl d s)
      = (BitVec.ofBool (d.getLsbD 8) ++ d.extractLsb' 0 8).setWidth 32 := by
        rw [ctrlWord, writeCtrl_ctrlInvMode, writeCtrl_ctrlEn, invModeBit_invModeOf]
    _ = (d.setWidth 9).setWidth 32 := by rw [ofBool_getLsbD_append_extractLsb']
    _ = 0#23 ++ d.setWidth 9 := BitVec.setWidth_eq_append (by decide)
    _ = d &&& 0x1FF#32 := (BitVec.and_setWidth_allOnes 23 9 d).symm

/-- Settles O25: the write sets the two fields, and reading them back gives their bits. -/
theorem csrWriteSetsCtrl : Obligations.CsrWriteSetsCtrl := by
  refine fun s d => ⟨writeCtrl d s, exec_csrWrite_of_eq (writeCsr_ctrl d s), ?state,
    (csrValue_ctrl _).trans (ctrlWord_writeCtrl d s)⟩
  rw [BitVec.setWidth_eq_extractLsb' (by decide : 8 ≤ 32)]
  rfl

/-- Settles O26: a write to STATUS is the model's clearing of the three sticky bits. -/
theorem csrWriteClearsStatus : Obligations.CsrWriteClearsStatus :=
  fun s d => exec_csrWrite_of_eq ((writeCsr_status d s).trans (writeStatus_eq d s))

/-- Settles O27: neither access finds a register at such an address. -/
theorem unmappedCsrReadsZero : Obligations.UnmappedCsrReadsZero :=
  fun s _ d h => ⟨exec_csrWrite_of_eq (writeCsr_unmapped h d s), exec_csrRead_of_value (csrValue_unmapped h s)⟩

/-! ### What no CSR transaction touches (R134) -/

/-- A CSR_WRITE changes CTRL and the sticky bits and nothing else, at every address (R131 to R133). -/
theorem writeCsr_changesOnlyCtrlAndStatus (a : BitVec 4) (d : BitVec 32) (s : State) :
    ∃ en mode de ov ab, writeCsr a d s =
      { s with ctrlEn := en, ctrlInvMode := mode, decodeErr := de, overflow := ov, abort := ab } := by
  rw [writeCsr]
  split
  · exact ⟨_, _, _, _, _, rfl⟩
  · split
    · exact ⟨_, _, _, _, _, writeStatus_eq d s⟩
    · exact ⟨_, _, _, _, _, rfl⟩

/-- The result of a CSR_READ stands on none of the three streams (R4, R134). -/
theorem streams_append_csr (out : List Output) (v : BitVec 32) :
    evtOf (out ++ [.csr v]) = evtOf out ∧ errOf (out ++ [.csr v]) = errOf out ∧
    txrOf (out ++ [.csr v]) = txrOf out := by
  simp [evtOf, errOf, txrOf]

/-- Settles O28: a read adds its result alone, and a write reaches CTRL and STATUS alone. -/
theorem csrTransactionsLeaveTheFramer : Obligations.CsrTransactionsLeaveTheFramer := by
  intro s a d i hi
  simp only [List.mem_cons, List.not_mem_nil, or_false] at hi
  rcases hi with rfl | rfl
  · obtain ⟨hevt, herr, htxr⟩ := streams_append_csr s.output (csrValue a s)
    exact ⟨_, exec_csrRead_of_value rfl, rfl, rfl, fun _ => rfl, hevt, herr, htxr, rfl, rfl⟩
  · obtain ⟨en, mode, de, ov, ab, h⟩ := writeCsr_changesOnlyCtrlAndStatus a d s
    exact ⟨_, exec_csrWrite_of_eq h, rfl, rfl, fun _ => rfl, rfl, rfl, rfl, rfl, rfl⟩

end Sys2Proof.Proofs
end

section
/-! What the host has pending and what has been emitted are read by no transaction, and every transaction of a state of
the invariant goes on (R140). -/

namespace Sys2Proof.Proofs

open Sys2Proof.Machine Sys2Proof.Safety Sys2Proof.Laws

/-! ### Transactions under other traffic -/

/-- The state with `inp` as all the host still has to issue and `out` as the outputs so far. -/
def withTraffic (inp : List Transaction) (out : List Output) (s : State) : State :=
  { s with input := inp, output := out }

/-- The operation `f` goes from `s` to `t` whatever is pending and whatever has been emitted: it leaves the pending
transactions, and appends the same outputs to any earlier ones. -/
def GoesUnderAnyTraffic (f : State → Host.Outcome State Fault Refusal) (s t : State) : Prop :=
  ∃ added, ∀ inp out, f (withTraffic inp out s) = .next (withTraffic inp (out ++ added) t)

/-- An operation that emits nothing. -/
theorem goesUnderAnyTraffic_of_silent {f : State → Host.Outcome State Fault Refusal} {s t : State}
    (h : ∀ inp out, f (withTraffic inp out s) = .next (withTraffic inp out t)) : GoesUnderAnyTraffic f s t :=
  ⟨[], fun inp out => by rw [List.append_nil, h]⟩

/-- An operation that goes on under any traffic goes on under the traffic of its own state. -/
theorem GoesUnderAnyTraffic.exists_next {f : State → Host.Outcome State Fault Refusal} {s t : State}
    (h : GoesUnderAnyTraffic f s t) : ∃ u, f s = .next u :=
  let ⟨_, hf⟩ := h
  ⟨_, hf s.input s.output⟩

/-- What an operation is seen to do in one state it does under any traffic. -/
theorem GoesUnderAnyTraffic.of_next {f : State → Host.Outcome State Fault Refusal} {s t u : State}
    (h : GoesUnderAnyTraffic f s u) (ht : f s = .next t) :
    t.input = s.input ∧ ∃ added, t.output = s.output ++ added ∧
      ∀ inp out, f (withTraffic inp out s) = .next (withTraffic inp (out ++ added) t) := by
  obtain ⟨added, hf⟩ := h
  obtain rfl : withTraffic s.input (s.output ++ added) u = t := Host.Outcome.next.inj ((hf _ _).symm.trans ht)
  exact ⟨rfl, added, rfl, hf⟩

/-! ### RX_BYTE -/

/-- The read of the buffer sees the buffer and the parameters alone (R12, R30). -/
theorem frBufReadFrom_withTraffic (inp : List Transaction) (out : List Output) (s : State) (i n : Nat) :
    frBufReadFrom (withTraffic inp out s) i n = frBufReadFrom s i n := by
  induction n generalizing i with
  | zero => rfl
  | succ n ih =>
    have hread : frBufRead (withTraffic inp out s) i = frBufRead s i := rfl
    simp only [frBufReadFrom, hread, ih]

theorem bufferedBytes_withTraffic (inp : List Transaction) (out : List Output) (s : State) :
    bufferedBytes (withTraffic inp out s) = bufferedBytes s :=
  frBufReadFrom_withTraffic inp out s 0 _

/-- The terminator of an open frame whose bytes can be read, in a state of the invariant or not (R65, R68). -/
theorem execRxByte_eox_of_buffered {s : State} {bytes : List Byte} (hs : s.frState ≠ .idle)
    (hb : bufferedBytes s = .ok bytes) :
    execRxByte Config.eox s =
      .next ((terminatorOutcome s.params s.ctrlEn s.ctrlInvMode s.frState bytes).apply (closed s)) := by
  cases hst : s.frState with
  | idle => exact absurd hst hs
  | recv =>
    have hend : rxEnd s = deliver (bytes ++ [Config.eox]) (closed s) := by rw [rxEnd, hb]; rfl
    simp only [execRxByte, rxFiltered_eox, hst, Bool.false_eq_true, if_false, if_true, hend, deliver_eq_apply]
    rfl
  | discard =>
    have hend : rxEndOverlong s = .next (raiseDecodeError .overflow (bytes ++ [Config.eox]) (closed s)) := by
      rw [rxEndOverlong, hb]; rfl
    simp only [execRxByte, rxFiltered_eox, hst, Bool.false_eq_true, if_false, if_true, hend,
      raiseDecodeError_eq_apply]
    rfl

/-- The terminator goes on under any traffic: its outcome is appended. -/
theorem execRxByte_eox_underAnyTraffic {s : State} {bytes : List Byte} (hs : s.frState ≠ .idle)
    (hb : bufferedBytes s = .ok bytes) : ∃ t, GoesUnderAnyTraffic (execRxByte Config.eox) s t :=
  let o := terminatorOutcome s.params s.ctrlEn s.ctrlInvMode s.frState bytes
  ⟨o.apply (closed s), o.added, fun inp out =>
    execRxByte_eox_of_buffered (s := withTraffic inp out s) hs ((bufferedBytes_withTraffic inp out s).trans hb)⟩

/-- A byte that ends no frame goes on under any traffic, rule by rule, and emits nothing (R61 to R64, R66, R67). -/
theorem execRxByte_silent_underAnyTraffic {s : State} {b : Byte} (hl : s.params.legal = true)
    (hb : b = Config.eox → s.frState = .idle) : ∃ t, GoesUnderAnyTraffic (execRxByte b) s t := by
  have hbounds := legal_bounds hl
  have hmax : 0 < s.params.maxFrameLen := by omega
  have of_rule {t : State} (h : ∀ inp out, execRxByte b (withTraffic inp out s) = .next (withTraffic inp out t)) :
      ∃ t, GoesUnderAnyTraffic (execRxByte b) s t := ⟨t, goesUnderAnyTraffic_of_silent h⟩
  by_cases hsox : b = Config.sox
  · subst hsox
    by_cases hs : s.frState = .idle
    · exact of_rule (t := opened s) fun _ _ => execRxByte_idle_sox hmax hs
    · exact of_rule (t := opened (setAbort s)) fun _ _ => execRxByte_open_sox hmax hs
  · cases hf : rxFiltered b s with
    | true => exact of_rule fun _ _ => execRxByte_of_filtered hf
    | false =>
      cases hs : s.frState with
      | idle => exact of_rule fun _ _ => execRxByte_idle_other hs hsox
      | recv =>
        have heox : b ≠ Config.eox := fun he => by simp [hb he] at hs
        by_cases hroom : s.frLen.toNat < s.params.maxFrameLen - 1
        · exact of_rule (t := stored b s) fun _ _ => execRxByte_recv_store hs hf hsox heox hroom
        · exact of_rule (t := overflowed s) fun _ _ =>
            execRxByte_recv_overflow hs hf hsox heox (Nat.not_lt.mp hroom)
      | discard =>
        have heox : b ≠ Config.eox := fun he => by simp [hb he] at hs
        exact of_rule fun _ _ => execRxByte_discard_other hs hsox heox

/-- The bytes of an open frame can be read if the byte `b` ends it. -/
def EndIsReadable (b : Byte) (s : State) : Prop :=
  b = Config.eox → s.frState ≠ .idle → ∃ bytes, bufferedBytes s = .ok bytes

/-- Every byte goes on under any traffic, where the frame it may end can be read. -/
theorem execRxByte_underAnyTraffic {s : State} {b : Byte} (hl : s.params.legal = true) (hb : EndIsReadable b s) :
    ∃ t, GoesUnderAnyTraffic (execRxByte b) s t := by
  by_cases hend : b = Config.eox ∧ s.frState ≠ .idle
  · obtain ⟨rfl, hs⟩ := hend
    obtain ⟨bytes, hbytes⟩ := hb rfl hs
    exact execRxByte_eox_underAnyTraffic hs hbytes
  · exact execRxByte_silent_underAnyTraffic hl fun he => by_contra fun hs => hend ⟨he, hs⟩

/-- A byte that went on found the frame it ended readable (R65, R68). -/
theorem endIsReadable_of_next {s t : State} {b : Byte} (h : execRxByte b s = .next t) : EndIsReadable b s := by
  have hne : Config.eox ≠ Config.sox := by decide
  rintro rfl hs
  rcases execRxByte_cases h with ⟨-, -, hopen⟩ | ⟨hi, -⟩ | ⟨-, he, -⟩ | ⟨-, -, he, -⟩ | ⟨-, -, he, -⟩ |
    ⟨-, -, bytes, hb, -⟩ | ⟨-, -, bytes, hb, -⟩
  · exact absurd rfl (hopen hs).2
  · exact absurd hi hs
  · exact absurd he hne
  · exact absurd rfl he
  · exact absurd rfl he
  · exact ⟨bytes, hb⟩
  · exact ⟨bytes, hb⟩

/-- In a state of the invariant the buffered bytes can always be read (R12). -/
theorem endIsReadable_of_framerInv {s : State} (h : FramerInv s) (b : Byte) : EndIsReadable b s := fun _ _ =>
  let ⟨bs, hbs⟩ := exists_holds (Nat.le_of_succ_le h.room) h.filled
  ⟨bs, bufferedBytes_of_holds hbs⟩

/-! ### Every transaction -/

/-- A CSR_WRITE reaches neither the pending transactions nor the outputs (R131 to R133). -/
theorem writeCsr_withTraffic (a : BitVec 4) (d : BitVec 32) (inp : List Transaction) (out : List Output) (s : State) :
    writeCsr a d (withTraffic inp out s) = withTraffic inp out (writeCsr a d s) := by
  unfold writeCsr
  split
  · rfl
  · split
    · rw [writeStatus_eq, writeStatus_eq]; rfl
    · rfl

/-- Every transaction goes on under any traffic, port by port, where the frame that a byte may end can be read. -/
theorem exec_transaction_underAnyTraffic {s : State} {x : Transaction} (hl : s.params.legal = true)
    (hx : ∀ b, x = .rx b → EndIsReadable b s) : ∃ t, GoesUnderAnyTraffic (exec (decodeTransaction x)) s t := by
  cases x with
  | rx b => exact execRxByte_underAnyTraffic hl (hx b rfl)
  | cmd w =>
    obtain ⟨r, hr⟩ := exists_commandResponse s.params w
    exact ⟨s, [.txr r], fun inp out => exec_of_commandResponse (s := withTraffic inp out s) hr⟩
  | csr w =>
    rw [decodeTransaction, decodeCsr]
    split
    · exact ⟨_, goesUnderAnyTraffic_of_silent fun inp out => congrArg _ (writeCsr_withTraffic _ _ inp out s)⟩
    · exact ⟨s, [.csr (csrValue (w.extractLsb' 32 4) s)], fun _ _ => rfl⟩
  | reset => exact ⟨resetState s, goesUnderAnyTraffic_of_silent fun _ _ => rfl⟩

/-- Settles O6: the invariant keeps the open frame readable, and nothing else could stop a transaction. -/
theorem noTransactionStopsTheBlock : Obligations.NoTransactionStopsTheBlock := by
  intro s h hne
  obtain ⟨x, rest, hx⟩ := List.exists_cons_of_ne_nil hne
  have hframer : FramerInv { s with input := rest } := framerInv_of_same h.framer rfl rfl rfl rfl
  obtain ⟨t, ht⟩ := exec_transaction_underAnyTraffic (x := x) hframer.legal
    fun b _ => endIsReadable_of_framerInv hframer b
  rw [step_cons h.framer.legal hx]
  exact ht.exists_next

end Sys2Proof.Proofs
end

section
/-! TX and RX do not see each other (R153): a run without its TX commands, and a run of its TX commands alone, beside the
whole run. -/

namespace Sys2Proof.Proofs

open Sys2Proof.Machine Sys2Proof.Safety Sys2Proof.Laws

/-! ### Induction along a run -/

/-- A transaction that went on goes the same way under any traffic, and consumes nothing further. -/
theorem exec_transaction_next {s t : State} {x : Transaction} (hl : s.params.legal = true)
    (h : exec (decodeTransaction x) s = .next t) :
    t.input = s.input ∧ ∃ added, t.output = s.output ++ added ∧ ∀ inp out,
      exec (decodeTransaction x) (withTraffic inp out s) = .next (withTraffic inp (out ++ added) t) := by
  obtain ⟨u, hu⟩ := exec_transaction_underAnyTraffic (x := x) hl
    fun _ hb => endIsReadable_of_next (hb ▸ h : exec (decodeTransaction (.rx _)) s = .next t)
  exact hu.of_next h

/-- A run of `k + 1` steps that ends went on at its first. -/
theorem run_succ_next {k : Nat} {s t : State} (h : Host.Core.run Sys2Proof.core (k + 1) s = .next t) :
    ∃ u, step s = .next u ∧ Host.Core.run Sys2Proof.core k u = .next t := by
  cases hs : step s with
  | next u => exact ⟨u, rfl, (run_succ_of_next hs).symm.trans h⟩
  | fault r =>
    have hs' : Sys2Proof.core.step s = .fault r := hs
    simp only [Host.Core.run, hs'] at h
    cases h
  | refused r =>
    have hs' : Sys2Proof.core.step s = .refused r := hs
    simp only [Host.Core.run, hs'] at h
    cases h

/-- A run that ends with a transaction pending went on at that transaction. -/
theorem runAll_cons_next {s t : State} {x : Transaction} {rest : List Transaction} (hx : s.input = x :: rest)
    (h : runAll s = .next t) :
    s.params.legal = true ∧ ∃ u, exec (decodeTransaction x) (withInput rest s) = .next u ∧ u.input = rest ∧
      runAll u = .next t := by
  rw [runAll, hx] at h
  obtain ⟨u, hs, hrun⟩ := run_succ_next h
  obtain ⟨hl, y, rest', hy, he⟩ := step_next hs
  obtain ⟨rfl, rfl⟩ := List.cons.inj (hx.symm.trans hy)
  obtain ⟨hu, -⟩ := exec_transaction_next (s := withInput rest s) hl he
  refine ⟨hl, u, he, hu, ?_⟩
  rw [runAll, hu]
  exact hrun

/-- What holds of the empty run, and of a run when it holds of the run after its first transaction, holds of every run
that ends. -/
theorem runAll_induction {P : State → State → Prop} (nil : ∀ s, s.input = [] → P s s)
    (cons : ∀ s u t x, s.params.legal = true → s.input = x :: u.input →
      exec (decodeTransaction x) (withInput u.input s) = .next u → P u t → P s t)
    {s t : State} (h : runAll s = .next t) : P s t := by
  induction hin : s.input generalizing s with
  | nil =>
    rw [runAll_nil hin] at h
    cases h
    exact nil _ hin
  | cons x rest ih =>
    obtain ⟨hl, u, he, rfl, hrun⟩ := runAll_cons_next hin h
    exact cons s u t x hl hin he (ih hrun rfl)

/-! ### Without the TX commands -/

/-- The two output lists have the same records on EVT and ERR and the same CSR results. -/
structure SameButTxr (o o' : List Output) : Prop where
  evt : evtOf o = evtOf o'
  err : errOf o = errOf o'
  csr : csrOf o = csrOf o'

theorem SameButTxr.append {o o' : List Output} (h : SameButTxr o o') (added : List Output) :
    SameButTxr (o ++ added) (o' ++ added) := by
  obtain ⟨hevt, herr, hcsr⟩ := h
  simp only [evtOf, errOf, csrOf] at hevt herr hcsr
  constructor <;> simp only [evtOf, errOf, csrOf, List.filterMap_append, hevt, herr, hcsr]

/-- A record on TXR is on no other stream (R4). -/
theorem SameButTxr.append_txr {o o' : List Output} (h : SameButTxr o o') (r : TxResponse) :
    SameButTxr o (o' ++ [.txr r]) := by
  obtain ⟨hevt, herr, hcsr⟩ := h
  simp only [evtOf, errOf, csrOf] at hevt herr hcsr
  constructor <;> simp [evtOf, errOf, csrOf, hevt, herr, hcsr]

/-- A TX command is executed as one record on TXR. -/
theorem exec_tx_next {s t : State} {x : Transaction} (hx : isTx x = true) (h : exec (decodeTransaction x) s = .next t) :
    ∃ r, t = emit (.txr r) s ∧
      ∀ u, u.params = s.params → exec (decodeTransaction x) u = .next (emit (.txr r) u) := by
  cases x with
  | cmd w =>
    obtain ⟨r, hr⟩ := exists_commandResponse s.params w
    have hu (u : State) (hp : u.params = s.params) : exec (decodeCmd w) u = .next (emit (.txr r) u) :=
      exec_of_commandResponse (hp ▸ hr)
    exact ⟨r, Host.Outcome.next.inj (h.symm.trans (hu s rfl)), hu⟩
  | rx | csr | reset => cases hx

/-- The pending transactions of `s` without the TX commands run to the state `t`, but for the records on TXR, of which
there may be others from the start. -/
def EndsAlikeWithoutTx (s t : State) : Prop :=
  ∀ out, SameButTxr out s.output →
    ∃ out', runAll (withTraffic (s.input.filter (fun x => !isTx x)) out s) = .next (withTraffic [] out' t) ∧
      SameButTxr out' t.output

/-- A TX command of the whole run is a record on TXR; any other transaction appends the same to both runs. -/
theorem runAll_endsAlikeWithoutTx {s t : State} (h : runAll s = .next t) : EndsAlikeWithoutTx s t := by
  refine runAll_induction (P := EndsAlikeWithoutTx) ?nil ?cons h
  case nil =>
    intro s hin out hout
    rw [hin]
    exact ⟨out, runAll_nil rfl, hout⟩
  case cons =>
    intro s u t x hl hin he ih out hout
    rw [hin]
    cases hx : isTx x with
    | true =>
      obtain ⟨r, hu, -⟩ := exec_tx_next hx he
      have hsame : withTraffic (u.input.filter (fun x => !isTx x)) out u =
          withTraffic (u.input.filter (fun x => !isTx x)) out s := by rw [hu]; rfl
      rw [List.filter_cons_of_neg (by simp [hx]), ← hsame]
      exact ih out (by rw [hu]; exact hout.append_txr r)
    | false =>
      obtain ⟨-, added, hadded, hany⟩ := exec_transaction_next (s := withInput u.input s) hl he
      rw [List.filter_cons_of_pos (by simp [hx])]
      obtain ⟨out', hrun, hout'⟩ := ih (out ++ added) (by rw [hadded]; exact hout.append added)
      exact ⟨out', (runAll_cons (s := withTraffic _ out s) hl rfl (hany _ out) rfl).trans hrun, hout'⟩

/-! ### The TX commands alone -/

/-- A transaction of another port leaves the parameters and the records on TXR (R134, R160). -/
theorem exec_nonTx_keepsTxr {s t : State} {x : Transaction} (hx : isTx x = false)
    (h : exec (decodeTransaction x) s = .next t) : t.params = s.params ∧ txrOf t.output = txrOf s.output := by
  cases x with
  | cmd w => cases hx
  | rx b =>
    obtain ⟨hp, -, -, -, ht, -⟩ := execRxByte_rxLeaves h
    exact ⟨hp, ht⟩
  | csr w =>
    rw [decodeTransaction, decodeCsr] at h
    split at h
    · cases h
      obtain ⟨en, mode, de, ov, ab, hw⟩ := writeCsr_changesOnlyCtrlAndStatus (w.extractLsb' 32 4) (w.extractLsb' 0 32) s
      rw [hw]
      exact ⟨rfl, rfl⟩
    · cases h
      obtain ⟨-, -, ht⟩ := streams_append_csr s.output (csrValue (w.extractLsb' 32 4) s)
      exact ⟨rfl, ht⟩
  | reset => cases h; exact ⟨rfl, rfl⟩

theorem txrOf_append_congr {o o' : List Output} (h : txrOf o = txrOf o') (added : List Output) :
    txrOf (o ++ added) = txrOf (o' ++ added) := by
  simp only [txrOf] at h
  simp only [txrOf, List.filterMap_append, h]

/-- The pending TX commands of `s`, run alone from any state of the same instance, give the records on TXR that `t` has. -/
def RespondsAlikeAlone (s t : State) : Prop :=
  ∀ v, v.params = s.params → v.input = s.input.filter isTx → txrOf v.output = txrOf s.output →
    ∃ w, runAll v = .next w ∧ txrOf w.output = txrOf t.output

/-- A TX command responds alike in both runs; any other transaction of the whole run leaves what a response reads. -/
theorem runAll_respondsAlikeAlone {s t : State} (h : runAll s = .next t) : RespondsAlikeAlone s t := by
  refine runAll_induction (P := RespondsAlikeAlone) ?nil ?cons h
  case nil =>
    intro s hin v hp hv hout
    rw [hin] at hv
    exact ⟨v, runAll_nil hv, hout⟩
  case cons =>
    intro s u t x hl hin he ih v hp hv hout
    rw [hin] at hv
    cases hx : isTx x with
    | true =>
      obtain ⟨r, hu, hany⟩ := exec_tx_next hx he
      rw [List.filter_cons_of_pos hx] at hv
      have hstep := hany (withInput (u.input.filter isTx) v) hp
      rw [runAll_cons (hp ▸ hl) hv hstep rfl]
      refine ih _ (by rw [hu]; exact hp) rfl ?_
      rw [hu]
      exact txrOf_append_congr hout [.txr r]
    | false =>
      obtain ⟨hup, hut⟩ := exec_nonTx_keepsTxr hx he
      rw [List.filter_cons_of_neg (by simp [hx])] at hv
      exact ih v (hp.trans hup.symm) hv (hout.trans hut.symm)

/-- Settles O57: the two runs beside the whole one, each from the state the whole one starts in. -/
theorem txAndRxDoNotInterfere : Obligations.TxAndRxDoNotInterfere := by
  intro s t h
  obtain ⟨out, hrun, hevt, herr, hcsr⟩ := runAll_endsAlikeWithoutTx h s.output ⟨rfl, rfl, rfl⟩
  exact ⟨⟨_, hrun, rfl, rfl, rfl, rfl, rfl, rfl, rfl, rfl, rfl, hevt, herr, hcsr⟩,
    runAll_respondsAlikeAlone h (withInput (s.input.filter isTx) s) rfl rfl rfl⟩

end Sys2Proof.Proofs
end

section
/-! A write to CTRL while a frame is open (R164): the framer goes on with the frame as if there had been no write, and
the frame's end reads the written CTRL. -/

namespace Sys2Proof.Proofs

open Sys2Proof.Machine Sys2Proof.Safety Sys2Proof.Laws

section

variable {s : State} {d : BitVec 32} {bs : List Byte} {ts : List Transaction}

/-! ### The write -/

/-- A run whose first transaction writes CTRL goes on from the state with CTRL written (R131). -/
theorem runAll_ctrlWrite (hl : s.params.legal = true) :
    runAll (withInput (.csr (csrWord true 0#4 d) :: ts) s) = runAll (withInput ts (writeCtrl d s)) := by
  refine runAll_cons (u := withInput ts (writeCtrl d s)) hl rfl ?_ rfl
  rw [decodeTransaction, decodeCsr_csrWord]
  exact exec_csrWrite_of_eq (writeCsr_ctrl d (withInput ts s))

/-- The closed frame under the written CTRL, field by field (R131). -/
theorem closed_writeCtrl (d : BitVec 32) (s : State) :
    closed (withInput [] (writeCtrl d s)) = { closed (withInput [] s) with
      ctrlEn := d.setWidth 8, ctrlInvMode := if d.getLsbD 8 then .handler else .signal } := by
  rw [BitVec.setWidth_eq_extractLsb' (by decide : 8 ≤ 32)]
  rfl

/-- The enable bit of every tag is among the eight bits of CTRL.EN (R17, R51). -/
theorem evTagIndex_lt_eight (t : EvTag) : t.index < 8 := by cases t <;> decide

/-- An event's enable bit after the write is the bit of the written word (R17, R131). -/
theorem getLsbD_ctrlEn_writeCtrl (d : BitVec 32) (s : State) (t : EvTag) :
    (writeCtrl d s).ctrlEn.getLsbD t.index = d.getLsbD t.index := by
  rw [writeCtrl_ctrlEn, BitVec.getLsbD_extractLsb', Nat.zero_add, decide_eq_true (evTagIndex_lt_eight t), Bool.true_and]

/-! ### The rest of the frame -/

/-- A frame that fits when CTRL is written ends as it would without the write, but under the written CTRL (R64, R65). -/
theorem runAll_ctrlWrite_recv {mid : List Byte} (hl : s.params.legal = true) (hs : s.frState = .recv)
    (hb : HoldsBytes s bs) (hroom : bs.length < s.params.maxFrameLen)
    (hmid : ∀ b ∈ mid, b ≠ Config.sox ∧ b ≠ Config.eox) :
    runAll (withInput (.csr (csrWord true 0#4 d) :: (rxOf mid ++ [.rx Config.eox])) s) =
      endOfFrame (closed (withInput [] (writeCtrl d s))) (bs ++ kept s.params mid) := by
  have hrec : Receiving (closed (withInput [] (writeCtrl d s))) bs (writeCtrl d s) := .fits hs hb hroom rfl
  exact (runAll_ctrlWrite hl).trans ((hrec.with_pending (rxOf mid ++ [.rx Config.eox])).run_frame hl hmid rfl)

/-- The bytes inside an over-long frame are dropped, one a step (R67). -/
theorem runAll_discard_inner (hl : s.params.legal = true) (hs : s.frState = .discard)
    (hbs : ∀ b ∈ bs, b ≠ Config.sox ∧ b ≠ Config.eox) :
    runAll (withInput (rxOf bs ++ ts) s) = runAll (withInput ts s) := by
  induction bs with
  | nil => rfl
  | cons b bs ih =>
    obtain ⟨⟨hsox, heox⟩, hrest⟩ := List.forall_mem_cons.mp hbs
    have hdrop : execRxByte b (withInput (rxOf bs ++ ts) s) = .next (withInput (rxOf bs ++ ts) s) :=
      execRxByte_discard_other hs hsox heox
    exact (runAll_rx hl hdrop rfl).trans (ih hrest)

/-- The rest of an over-long frame: its terminator reports what the framer retains of it (R67, R68). -/
theorem runAll_discard_frame {mid : List Byte} (hl : s.params.legal = true) (hs : s.frState = .discard)
    (hb : HoldsBytes s bs) (hmid : ∀ b ∈ mid, b ≠ Config.sox ∧ b ≠ Config.eox) :
    runAll (withInput (rxOf mid ++ [.rx Config.eox]) s) =
      .next (reported ⟨.overflow, bs ++ [Config.eox]⟩ (closed (withInput [] s))) := by
  calc runAll (withInput (rxOf mid ++ [.rx Config.eox]) s)
      = runAll (withInput [.rx Config.eox] s) := runAll_discard_inner hl hs hmid
    _ = execRxByte Config.eox (withInput [] s) := runAll_last (s := withInput [.rx Config.eox] s) hl rfl
    _ = .next (raiseDecodeError .overflow (bs ++ [Config.eox]) (closed (withInput [] s))) :=
        execRxByte_discard_eox hs hb
    _ = .next (reported ⟨.overflow, bs ++ [Config.eox]⟩ (closed (withInput [] s))) := by
        rw [raiseDecodeError_eq_reported]

/-! ### The delivery of a frame by its class -/

/-- The delivery of a frame of a class with an event (R80, R90). -/
theorem deliver_of_eventOf {f : List Byte} {k : FrameClass} {e : EvRecord} (hk : decodeFrame s.params f = .ok k)
    (he : eventOf k = some e) : deliver f s = .next (eventOutcome e.tag.index e s) :=
  (deliver_of_ok hk).trans (exec_of_eventOf he s)

/-- The delivery of a frame of unknown class (R80, R89). -/
theorem deliver_of_unknown {f g : List Byte} (hk : decodeFrame s.params f = .ok (.unknown g)) :
    deliver f s = .next (reported ⟨.unknownClass, f⟩ s) := by
  obtain ⟨rfl, -⟩ := decodeFrame_eq_unknown hk
  exact (deliver_of_ok hk).trans (exec_invalidUnknownClass g s)

end

/-- Settles O56: after the write the frame ends by R65 or R68 on the state with the written CTRL. -/
theorem ctrlWriteGovernsTheOpenFrame : Obligations.CtrlWriteGovernsTheOpenFrame := by
  intro s c d bs mid held hl _ hb hroom hmid hheld hc
  rw [← closed_writeCtrl] at hc
  subst hc hheld
  refine ⟨fun hs hfits => ?recv, fun hs hlong => ?overlong, fun hs => ?discard⟩
  case recv =>
    have hrun := (runAll_ctrlWrite_recv (d := d) hl hs hb hroom hmid).trans (if_pos hfits)
    refine ⟨fun k e hk he => ?_, fun f hk => hrun.trans (deliver_of_unknown hk),
      fun r hr => hrun.trans (deliver_of_error hr)⟩
    rw [← getLsbD_ctrlEn_writeCtrl d s e.tag]
    exact hrun.trans (deliver_of_eventOf hk he)
  case overlong =>
    exact (runAll_ctrlWrite_recv hl hs hb hroom hmid).trans (if_neg (Nat.not_lt.mpr hlong))
  case discard =>
    exact (runAll_ctrlWrite hl).trans (runAll_discard_frame (s := writeCtrl d s) hl hs hb hmid)

end Sys2Proof.Proofs
end

section
/-! RESET (R160), and the host's conversions: the responses it transmits (R166), the duration of a flash speed (R167)
and the LIGHTS field (R168). -/

namespace Sys2Proof.Proofs

open Sys2Proof.Machine

/-- Settles O2: RESET's meaning is the model's reset of the state. -/
theorem resetTransactionRestoresReset : Obligations.ResetTransactionRestoresReset := fun _ => rfl

/-! ### What the host transmits (R166) -/

/-- Settles O60, output by output: only a MSG response on TXR has bytes for the host to send. -/
theorem transmittedIsTheMessageResponses : Obligations.TransmittedIsTheMessageResponses := by
  intro out
  induction out with
  | nil => rfl
  | cons o out ih =>
    cases o with
    | evt r | err r | csr d => exact ih
    | txr r =>
      cases r with
      | msg bytes => exact congrArg (bytes :: ·) ih
      | bytes3 t0 t1 t2 | reject code => exact ih

/-! ### The duration of a flash speed (R167) -/

/-- The ceiling of a speed up to 30 fits the signed field. -/
theorem toInt_durationForSpeed {speed : Nat} (h : speed ≤ 30) :
    (durationForSpeed speed).toInt = (speed * 16384 + 29 : Int) / 30 := by
  have hnat : (durationForSpeed speed).toNat = (speed * 16384 + 29) / 30 := by
    rw [durationForSpeed, BitVec.toNat_ofNat]; omega
  rw [BitVec.toInt_eq_toNat_of_lt (by omega), hnat]
  omega

/-- No policy changes a duration in [0, 1] (R114). -/
theorem flashDuration_of_unit {policy : FlashPolicy} {dur : BitVec 16} (h : 0 ≤ dur.toInt ∧ dur.toInt ≤ 16384) :
    flashDuration policy dur = dur.toInt := by
  rw [flashDuration, if_neg (by omega), if_neg (by omega)]

/-- Settles O18: the duration is in [0, 1], and the speed is the floor that R114 takes of it. -/
theorem durationForSpeedGivesSpeed : Obligations.DurationForSpeedGivesSpeed := by
  intro s target speed ht hspeed
  have hdur := toInt_durationForSpeed hspeed
  have hunit : 0 ≤ (durationForSpeed speed).toInt ∧ (durationForSpeed speed).toInt ≤ 16384 := by omega
  have hflash := flashDuration_of_unit (policy := s.params.flashPolicy) hunit
  have hstate : BitVec.ofInt 8 (0x40 + (speed : Int)) = BitVec.ofNat 8 (0x40 + speed) :=
    BitVec.ofInt_natCast 8 (0x40 + speed)
  obtain ⟨-, -, haccepted⟩ := flashLightResult s target (durationForSpeed speed)
  rw [← hstate]
  exact haccepted ht (fun _ => hunit) speed (by omega) (by omega)

/-! ### The LIGHTS field (R168) -/

/-- A mapping has a field when the rest of it has one and its first index has a bit. -/
theorem lightsOf_cons_eq_some_iff {i : Nat} {is : List Nat} {l : BitVec 35} :
    lightsOf (i :: is) = some l ↔ i < 35 ∧ ∃ m, lightsOf is = some m ∧ m ||| BitVec.ofNat 35 (2 ^ i) = l := by
  rw [lightsOf]
  cases lightsOf is <;> simp

theorem exists_lightsOf_eq_some_iff (is : List Nat) : (∃ l, lightsOf is = some l) ↔ ∀ i ∈ is, i < 35 := by
  induction is with
  | nil => simp [lightsOf]
  | cons i is ih =>
    rw [List.forall_mem_cons, ← ih]
    simp only [lightsOf_cons_eq_some_iff]
    constructor
    · rintro ⟨-, hi, m, hm, -⟩
      exact ⟨hi, m, hm⟩
    · rintro ⟨hi, m, hm⟩
      exact ⟨_, hi, m, hm, rfl⟩

theorem getLsbD_of_lightsOf {is : List Nat} {l : BitVec 35} (h : lightsOf is = some l) {j : Nat} (hj : j < 35) :
    l.getLsbD j = decide (j ∈ is) := by
  induction is generalizing l with
  | nil => cases h; simp
  | cons i is ih =>
    obtain ⟨-, m, hm, rfl⟩ := lightsOf_cons_eq_some_iff.mp h
    rw [BitVec.getLsbD_or, ih hm, BitVec.getLsbD_ofNat, Nat.testBit_two_pow, Bool.eq_iff_iff]
    simp [hj, or_comm, @eq_comm _ j i]

/-- Settles O58: both clauses along the list of indices. -/
theorem lightsFieldHoldsTheMapping : Obligations.LightsFieldHoldsTheMapping :=
  fun is => ⟨exists_lightsOf_eq_some_iff is, fun _ h _ hi => getLsbD_of_lightsOf h hi⟩

end Sys2Proof.Proofs
end
